-- ==== Sys2Proof/Word.lean ====
section
/-! DEFINITION. Widths in which the links carry values (spec R186). -/

namespace Sys2Proof

/-- One byte of a frame (R179). -/
abbrev Byte := BitVec 8

/-- A two-byte value: slots, location codes, change stamps (R186). -/
abbrev Half := BitVec 16

/-- A four-byte value: clock values and minute counts (R186). -/
abbrev Word := BitVec 32

/-- A label: its bytes in order (R65). -/
abbrev Label := List Byte

end Sys2Proof
end

