-- ==== Sys2Proof/Syntax.lean ====
section
/-! DEFINITION. The commands of the block: one constructor for each row of spec/opcode_table.json. -/

namespace Sys2Proof

/-- The two serial links (R179). -/
inductive Link where
  | host
  | floor
  deriving DecidableEq, Repr

/-- What a label, a claim or an alert can name: a carrier slot or a container number (R65). -/
inductive Item where
  | carrier (slot : Nat)
  | container (number : Nat)
  deriving DecidableEq, Repr

/-- Why a frame is bad when it is discarded (R180): its length byte, or its body beside a check that does not match. -/
inductive BadCause where
  | length (n : Byte)
  | check (body : List Byte) (check : Half)
  deriving DecidableEq, Repr

/-- The pin levels a start samples: two strap bits for each link (SPD1 high bit, SPD0 low bit) and the eight
door lines, bit n for DOORn (R179, R195). -/
structure StartPins where
  hostStraps : BitVec 2
  floorStraps : BitVec 2
  doors : Byte
  deriving DecidableEq, Repr

/-- The fields of SETUNIT in their order (R186). -/
structure UnitFields where
  arbiterMode : Byte
  alertOrder : Byte
  hostLimit : Byte
  floorLimit : Byte
  staleRate : Byte
  watchBlock : Byte
  inversion : Byte
  deriving DecidableEq, Repr

/-- The fields of SETZONE in their order (R186). -/
structure ZoneFields where
  zone : Byte
  active : Byte
  kind : Byte
  gated : Byte
  base : Half
  k : Byte
  source : Byte
  fixedRate : Byte
  staleLimit : Byte
  doorLine : Byte
  doorGrace : Byte
  indicatorLine : Byte
  outageRate : Byte
  deriving DecidableEq, Repr

/-- The values of SETCLASS DEFINE and REVISE in their order, times in minutes (R186). -/
structure ClassFields where
  limit : Word
  warn : Byte
  ceiling : Word
  bakeRequirement : Word
  bakeBudget : Byte
  deriving DecidableEq, Repr

/-- The fields of SETGRID in their order (R186). -/
structure GridFields where
  tempEdges : List Half
  humEdges : List Half
  exposure : List Byte
  recovery : List Byte
  bake : List Byte
  deriving DecidableEq, Repr

/-- The commands. A request row carries the link it came on, its tag and the fields of its layout (R186), as
they were sent; `none` is a trailing field that was left out (R183). -/
inductive Instr where
  -- Time Base, Exposure Engine, Ambient Monitor, Door Inputs
  | minuteEvent
  | keyEvent (zone : Fin 64)
  | stalenessExpiry (zone : Fin 64)
  | doorGraceReached (zone : Fin 64)
  | drain
  -- Frame Engines
  | goodFrame (link : Link) (body : List Byte) (check : Half)
  | badFrame (link : Link) (cause : BadCause)
  | frameSilence (link : Link) (received : List Byte)
  | replySent (link : Link)
  -- Unit requests
  | status (link : Link) (tag : Byte)
  | setClock (link : Link) (tag : Byte) (clock : Word)
  | setUnit (link : Link) (tag : Byte) (fields : UnitFields)
  | erase (link : Link) (tag : Byte)
  | quiesceImmediate (link : Link) (tag : Byte)
  | quiesceConditional (link : Link) (tag : Byte)
  | resume (link : Link) (tag : Byte)
  -- Enrolment and movement
  | enrolCarrier (link : Link) (tag : Byte) (label : Label) (cls : Byte) (minutes : Word) (packed : Byte)
      (bakeCount : Byte) (loc : Option Half)
  | enrolContainer (link : Link) (tag : Byte) (label : Label) (packed : Byte) (loc : Option Half)
  | openItem (link : Link) (tag : Byte) (label : Label) (stamp : Option Half) (loc : Option Half)
  | place (link : Link) (tag : Byte) (label : Label) (stamp : Half) (loc : Half)
  | pack (link : Link) (tag : Byte) (label : Label) (stamp : Option Half)
  | nest (link : Link) (tag : Byte) (label : Label) (target : Label) (stamp : Option Half)
  | unnest (link : Link) (tag : Byte) (label : Label) (stamp : Option Half)
  | retire (link : Link) (tag : Byte) (label : Label) (stamp : Option Half)
  | hold (link : Link) (tag : Byte) (label : Label) (reason : Byte) (stamp : Option Half)
  | unhold (link : Link) (tag : Byte) (label : Label) (stamp : Option Half)
  | evacuate (link : Link) (tag : Byte) (zone : Byte) (loc : Half)
  -- Reading
  | lookup (link : Link) (tag : Byte) (label : Label) (start : Option Byte)
  | zoneInfo (link : Link) (tag : Byte) (zone : Byte)
  | residents (link : Link) (tag : Byte) (zone : Byte) (start : Half)
  | batchInfo (link : Link) (tag : Byte) (start : Option Byte)
  | classInfo (link : Link) (tag : Byte) (cls : Byte)
  -- Tables and readings
  | setZone (link : Link) (tag : Byte) (fields : ZoneFields)
  | setClassDefine (link : Link) (tag : Byte) (cls : Byte) (values : ClassFields)
  | setClassRevise (link : Link) (tag : Byte) (cls : Byte) (values : ClassFields)
  | setClassUndefine (link : Link) (tag : Byte) (cls : Byte)
  | setGrid (link : Link) (tag : Byte) (fields : GridFields)
  | ambient (link : Link) (tag : Byte) (zone : Byte) (temp : Half) (hum : Half)
  -- Claims
  | claim (link : Link) (tag : Byte) (label : Label)
  | release (link : Link) (tag : Byte) (label : Label)
  -- Capture and watch
  | watchSet (link : Link) (tag : Byte) (base : Half) (k : Byte) (mask : Byte) (block : Option Byte)
  | watchArm (link : Link) (tag : Byte)
  | watchDisarm (link : Link) (tag : Byte)
  | capRead (link : Link) (tag : Byte)
  | capClear (link : Link) (tag : Byte)
  -- Alert Queue
  | alerts (link : Link) (tag : Byte) (maximum : Option Byte)
  -- Batch Unit steps
  | moveCarrierStep
  | moveFinalStep
  | packUnpackCarrierStep
  | packUnpackFinalStep
  | reparentCarrierStep
  | reparentFinalStep
  | classRevisionStep
  -- Door Inputs
  | doorOpening (line : Fin 8)
  | doorClosing (line : Fin 8)
  -- Claim Table
  | claimSecond
  | claimLapsed (item : Item)
  -- Power Controller
  | powerFailWarning
  | retainEntry (vback : Bool)
  | mainPowerLoss (vback : Bool)
  | backupLoss
  | warmStart (pins : StartPins)
  | coldStart (pins : StartPins)
  | resetAsserted
  | resetReleased (pins : StartPins)
  deriving DecidableEq, Repr

end Sys2Proof
end

