-- ==== Sys2Proof/Decode.lean ====
section
/-! DEFINITION. Commands spelled by the table's bits. No row of spec/opcode_table.json gives bits: requests travel in
frames (R180 to R186), which Machine/Frames.lean reads. -/

namespace Sys2Proof

/-- The command a table word spells: none, since no row of the table has bits. -/
def decodeTableWord (_nbits _w : Nat) : Option Instr := none

end Sys2Proof
end

