-- ==== Sys2Proof/Config.lean ====
section
/-! DEFINITION. The fixed sizes of the part and the default Rate Grid. The spec leaves no value of a command's
result open, so there is no uninterpreted constant here. -/

namespace Sys2Proof.Config

/-- Carrier slots (R1). -/
def carrierSlots : Nat := 4096

/-- Container numbers (R88). -/
def containerNumbers : Nat := 512

/-- Zone records (R26). -/
def zoneCount : Nat := 64

/-- Class records (R50). -/
def classCount : Nat := 32

/-- Batch records (R124). -/
def batchLimit : Nat := 8

/-- Claims (R147). -/
def claimTableSize : Nat := 32

/-- Alert entries (R168). -/
def alertLimit : Nat := 128

/-- Frames in a receive buffer (R182). -/
def bufferLimit : Nat := 4

/-- Closed segments of a carrier (R22). -/
def segmentLimit : Nat := 6

/-- Direct members of a container (R89). -/
def memberLimit : Nat := 64

/-- Carriers in a container's subtree (R90). -/
def subtreeLimit : Nat := 256

/-- Containers in a chain (R90). -/
def depthLimit : Nat := 3

/-- Consecutive port grants before a waiting step is served under PORTS_FIRST (R143). -/
def portGrantLimit : Nat := 8

/-- Credits to the minute (00_scope.md 3.1, R50). -/
def creditsPerMinute : Nat := 16

/-- The greatest base exposure and bake progress (R9, R24). -/
def accountMax : Nat := 4294967295

/-- The greatest missed-minute count and OUTAGE value (R170, R194). -/
def minutesMax : Nat := 4294967295

/-- Longest frame body (R180, R184). -/
def bodyMax : Nat := 240

/-- Default temperature edges in 0.1 °C (chapter 3, 3.4). -/
def defaultTempEdges : List Int := [150, 200, 250, 300, 350, 400, 600]

/-- Default humidity edges in 0.1 % (chapter 3, 3.4). -/
def defaultHumEdges : List Int := [100, 200, 300, 400, 500, 600, 700]

/-- Phases of the pattern clock: its period is 2 s, the shortest on-time 0.125 s (R120). -/
def patternPhases : Nat := 16

end Sys2Proof.Config
end

