-- ==== Sys2Proof/Machine/State.lean ====
section
/-! DEFINITION. Everything the spec gives the part as state, plain data, and the state after reset. -/

namespace Sys2Proof.Machine

/-! Carriers (chapter 1) -/

/-- Life status of a carrier (R5). -/
inductive Life where
  | fresh
  | warned
  | expired
  | spent
  deriving DecidableEq, Repr

/-- Residence mode (R3). -/
inductive ResMode where
  | still
  | accrue
  | rest
  | bake
  deriving DecidableEq, Repr

/-- A parent: a (zone, location code) pair or a container number (1.1, 5.1). -/
inductive Parent where
  | place (zone loc : Nat)
  | container (number : Nat)
  deriving DecidableEq, Repr

/-- A closed segment (R20). -/
structure ClosedSeg where
  zone : Option Nat
  mode : ResMode
  stamp : Option Word
  minutes : Word
  credits : Int
  deriving DecidableEq, Repr

/-- The open segment (R20). -/
structure OpenSeg where
  zone : Option Nat
  mode : ResMode
  stamp : Option Word
  entry : Word
  credits : Int
  deriving DecidableEq, Repr

/-- A live carrier record (1.1). Its label stands in the Label Directory. -/
structure Carrier where
  cls : Nat
  packed : Bool
  parent : Option Parent
  zone : Option Nat
  mode : ResMode
  life : Life
  base : Nat
  aE : Nat
  aP : Nat
  progress : Nat
  bakeCount : Nat
  eligible : Bool
  eKey : Option Nat
  pKey : Option Nat
  hold : Nat
  carried : Int
  closed : List ClosedSeg
  openSeg : OpenSeg
  stamp : Nat
  inTransit : Bool
  enrolStamp : Option Word
  deriving DecidableEq, Repr

/-! Containers (chapter 5) -/

/-- A live container record (5.1). Its label stands in the Label Directory. -/
structure Container where
  packed : Bool
  parent : Option Parent
  zone : Option Nat
  members : List Item
  subtree : Nat
  depth : Nat
  inTransit : Bool
  stamp : Nat
  deriving DecidableEq, Repr

/-! Zones (chapters 2 and 6) -/

/-- Zone kind (2.1). -/
inductive ZoneKind where
  | floor
  | dry
  | oven
  deriving DecidableEq, Repr

/-- Zone mode (R31). -/
inductive ZoneMode where
  | normal
  | degraded
  deriving DecidableEq, Repr

/-- Rate source (2.1). -/
inductive RateSource where
  | grid
  | fixed
  deriving DecidableEq, Repr

/-- The configuration fields of a zone, written by SETZONE (R26). -/
structure ZoneConfig where
  active : Bool
  kind : ZoneKind
  gated : Bool
  base : Nat
  k : Nat
  source : RateSource
  fixedRate : Nat
  staleLimit : Nat
  doorLine : Option Nat
  doorGrace : Nat
  indicatorLine : Option Nat
  outageRate : Nat
  deriving DecidableEq, Repr

/-- A reading: temperature in 0.1 °C, humidity in 0.1 % (6.1). -/
structure Reading where
  temp : Int
  hum : Int
  deriving DecidableEq, Repr

/-- An entry of a deadline list: a carrier slot under a key (R37). -/
structure KeyEntry where
  slot : Nat
  key : Nat
  deriving DecidableEq, Repr

/-- Residents of a zone by life status (R46). -/
structure LifeCounts where
  fresh : Nat
  warned : Nat
  expired : Nat
  spent : Nat
  deriving DecidableEq, Repr

/-- A zone record (2.1, 6.1, R113). The bands are formed from the reading and the grid (R61). -/
structure Zone where
  cfg : ZoneConfig
  reading : Option Reading
  countdown : Nat
  stale : Bool
  doorOpen : Bool
  openMinutes : Nat
  doorEvents : Nat
  doorDegraded : Bool
  mode : ZoneMode
  eRate : Nat
  pRate : Nat
  e : Nat
  p : Nat
  eList : List KeyEntry
  pList : List KeyEntry
  residents : Nat
  counts : LifeCounts
  containers : Nat
  evacuating : Bool
  deriving DecidableEq, Repr

/-- The zone record at cold start (R49, R121, R122). -/
def Zone.cold : Zone where
  cfg :=
    { active := false, kind := .floor, gated := false, base := 0, k := 0, source := .grid, fixedRate := 16,
      staleLimit := 10, doorLine := none, doorGrace := 2, indicatorLine := none, outageRate := 255 }
  reading := none
  countdown := 0
  stale := false
  doorOpen := false
  openMinutes := 0
  doorEvents := 0
  doorDegraded := false
  mode := .normal
  eRate := 0
  pRate := 0
  e := 0
  p := 0
  eList := []
  pList := []
  residents := 0
  counts := { fresh := 0, warned := 0, expired := 0, spent := 0 }
  containers := 0
  evacuating := false

/-! Classes and the Rate Grid (chapter 3) -/

/-- The values of a defined class, times in credits (R50). -/
structure ClassValues where
  limit : Nat
  warn : Nat
  ceiling : Nat
  bakeRequirement : Nat
  bakeBudget : Nat
  deriving DecidableEq, Repr

/-- A class record: `values` is absent while the class is undefined (R50). -/
structure ClassRec where
  values : Option ClassValues
  inUse : Nat
  revisions : Nat
  deriving DecidableEq, Repr

/-- The class record at cold start (R59). -/
def ClassRec.cold : ClassRec where
  values := none
  inUse := 0
  revisions := 0

/-- The Rate Grid less the stale rate, which is a unit setting (R60). The exposure grid is listed with t = 0
first, and h from 0 to 7 within each t. -/
structure RateGrid where
  tempEdges : List Int
  humEdges : List Int
  exposure : List Nat
  recovery : List Nat
  bake : List Nat
  deriving DecidableEq, Repr

/-- The Rate Grid at cold start (R64). -/
def RateGrid.cold : RateGrid where
  tempEdges := Config.defaultTempEdges
  humEdges := Config.defaultHumEdges
  exposure := List.replicate 64 255
  recovery := List.replicate 8 0
  bake := List.replicate 8 0

/-! Unit settings (R189) -/

/-- Arbiter mode (R143, R144). -/
inductive ArbiterMode where
  | portsFirst
  | batchFirst
  | batchExclusive
  deriving DecidableEq, Repr

/-- Alert order policy (R177). -/
inductive AlertOrder where
  | age
  | rank
  deriving DecidableEq, Repr

/-- The unit settings. -/
structure UnitSettings where
  arbiterMode : ArbiterMode
  alertOrder : AlertOrder
  hostLimit : Nat
  floorLimit : Nat
  staleRate : Nat
  watchBlock : Bool
  inversion : Byte
  deriving DecidableEq, Repr

/-- The unit settings at cold start (R189). -/
def UnitSettings.cold : UnitSettings where
  arbiterMode := .portsFirst
  alertOrder := .age
  hostLimit := 30
  floorLimit := 10
  staleRate := 255
  watchBlock := false
  inversion := 0

/-! Batches (chapter 7) -/

/-- Quiesce state (R137). -/
inductive Quiesce where
  | active
  | quiescing
  | quiesced
  deriving DecidableEq, Repr

/-- Kind, subject, direction, source and target of a batch (R124). -/
inductive BatchJob where
  | move (container : Nat) (source : Option Nat) (target loc : Nat)
  | pack (container : Nat)
  | unpack (container : Nat)
  | nesting (container target : Nat)
  | unnesting (container : Nat)
  | revision (cls : Nat)
  | evacuate (source target loc : Nat)
  deriving DecidableEq, Repr

/-- A batch record (R124). `walk` is the cursor: the carriers still to be stepped, in the order of R128.
`carriers` and `containers` are the items the batch holds in transit (R102, R127). -/
structure Batch where
  number : Nat
  job : BatchJob
  link : Link
  total : Nat
  done : Nat
  leftBehind : Nat
  walk : List Nat
  carriers : List Nat
  containers : List Nat
  deriving DecidableEq, Repr

/-- The Store Arbiter's choice (R142). -/
inductive Grant where
  | none
  | drain
  | step
  | port (link : Link)
  deriving DecidableEq, Repr

/-! Claims (chapter 8) -/

/-- A claim (R147). -/
structure Claim where
  item : Item
  link : Link
  seconds : Nat
  deriving DecidableEq, Repr

/-! Capture Unit (chapter 9) -/

/-- Captured kinds (9.1). -/
inductive CaptureKind where
  | unmapped
  | ambientRange
  | unknownZone
  | frameCheck
  | backupLost
  | watchMatch
  deriving DecidableEq, Repr

/-- Capture sources (9.1). -/
inductive CaptureSource where
  | hostLink
  | floorLink
  | batch
  | ambient
  | power
  deriving DecidableEq, Repr

/-- A held capture record (9.1): HELD_MATCH when its kind is WATCH_MATCH, and HELD_FAULT otherwise.
`blocked` is the outcome field, present for WATCH_MATCH only. -/
structure CaptureRec where
  kind : CaptureKind
  source : CaptureSource
  label : Option Label
  loc : Option Nat
  zone : Option Nat
  stamp : Option Word
  blocked : Option Bool
  deriving DecidableEq, Repr

/-- The watch settings and arming state (9.3). -/
structure Watch where
  base : Nat
  k : Nat
  mask : BitVec 3
  block : Bool
  armed : Bool
  deriving DecidableEq, Repr

/-- The watch after every start (R167). -/
def Watch.cold : Watch where
  base := 0
  k := 0
  mask := 0
  block := false
  armed := false

/-! Alert Queue (chapter 10) -/

/-- Alert kinds (R169). -/
inductive AlertKind where
  | expired
  | spent
  | capture
  | zoneDegraded
  | warned
  | bakeRefused
  | claimLapsed
  | outage
  | leftBehind
  | bakeDone
  | recovered
  | zoneRestored
  | batchDone
  deriving DecidableEq, Repr

/-- Cause of a ZONE_DEGRADED (R111). -/
inductive Cause where
  | stale
  | door
  deriving DecidableEq, Repr

/-- Batch kinds as reported (R186). -/
inductive BatchKind where
  | move
  | pack
  | unpack
  | reparent
  | classRevision
  | evacuate
  deriving DecidableEq, Repr

/-- Alert subjects (R168, R169). -/
inductive Subject where
  | item (item : Item) (label : Label)
  | zone (zone : Nat)
  | batch (number : Nat) (kind : BatchKind)
  | captureUnit
  | powerController
  deriving DecidableEq, Repr

/-- Alert values (R169). -/
inductive AlertValue where
  | cause (cause : Cause)
  | captured (kind : CaptureKind)
  | link (link : Link)
  | minutes (n : Nat)
  | leftBehind (n : Nat)
  deriving DecidableEq, Repr

/-- An entry of the Alert Queue (R168). -/
structure Alert where
  kind : AlertKind
  subject : Subject
  retired : Bool
  stamp : Option Word
  count : Nat
  value : Option AlertValue
  deriving DecidableEq, Repr

/-! Links (chapter 11) -/

/-- The request in hand (R182): waiting for its owner or the store, or answered, with its reply body under
transmission. -/
inductive Hand where
  | waiting (request : Instr)
  | replying (body : List Byte)
  deriving DecidableEq, Repr

/-- A character on a receive line: its 8 data bits, and whether its stop bit is there (R179). -/
structure Character where
  data : Byte
  stop : Bool
  deriving DecidableEq, Repr

/-- One link's Frame Engine (R182, R190). `frame` is the frame part-way through reception, as the bytes received since
its lead byte; absent while the Frame Engine hunts for a lead byte (R180). -/
structure LinkState where
  frame : Option (List Byte)
  buffer : List (List Byte)
  hand : Option Hand
  badFrame : Bool
  overrun : Bool
  speed : BitVec 2
  deriving DecidableEq, Repr

/-- A link at a start with the speed its straps give (R190). -/
def LinkState.start (straps : BitVec 2) : LinkState where
  frame := none
  buffer := []
  hand := none
  badFrame := false
  overrun := false
  speed := straps

/-! Power Controller (chapter 12) -/

/-- Power state (R192). -/
inductive Power where
  | off
  | run
  | retain
  deriving DecidableEq, Repr

/-- Kind of the last start (R187). -/
inductive StartKind where
  | cold
  | warm
  | reset
  deriving DecidableEq, Repr

/-! The whole state -/

/-- The state of the part. Sparse tables list (number, record) pairs in rising order of number. -/
structure State where
  /-- The commands that wait, oldest first (the model's own field). -/
  pending : List Instr
  /-- The characters that reach the receivers after the commands that wait, first first (the model's own field). -/
  line : List (Link × Character)
  power : Power
  /-- PFWn has been taken and RETAIN is not yet entered (R193). -/
  windDown : Bool
  /-- RESETn is low, as taken in RUN (R196). -/
  resetAsserted : Bool
  /-- The check word has its fixed form (R191). -/
  checkWord : Bool
  lastStart : StartKind
  missed : Nat
  minuteCount : Word
  /-- Absent while the clock is invalid (R188). -/
  clock : Option Word
  /-- The pattern clock, in eighths of a second of its 2 s period (R120). -/
  patternPhase : Nat
  hostLink : LinkState
  floorLink : LinkState
  settings : UnitSettings
  grid : RateGrid
  zones : List Zone
  classes : List ClassRec
  carriers : List (Nat × Carrier)
  containers : List (Nat × Container)
  directory : List (Label × Item)
  batches : List Batch
  quiesce : Quiesce
  nextBatch : Nat
  lastServed : Link
  portCount : Nat
  /-- Links whose port request waited when an exclusive batch completed and is not yet granted (R144). -/
  owed : List Link
  /-- The port request or step that asked for the store as the last minute event came, with the store free and the
  arbiter choosing it: it may have held the store over that event (R36, R43; the model's own field, log entry 33). -/
  heldOver : Grant
  claims : List Claim
  capture : Option CaptureRec
  moreFaults : Bool
  watch : Watch
  alerts : List Alert
  overflow : Bool
  /-- The level taken on each door line, bit n for DOORn (R112). -/
  doorLevel : Byte
  deriving DecidableEq, Repr

/-- The part without power: no state is held (R192). The fields stand at their cold values, which nothing shows,
since a cold start writes every one of them. -/
def State.unpowered : State where
  pending := []
  line := []
  power := .off
  windDown := false
  resetAsserted := false
  checkWord := false
  lastStart := .cold
  missed := 0
  minuteCount := 0
  clock := none
  patternPhase := 0
  hostLink := LinkState.start 0
  floorLink := LinkState.start 0
  settings := UnitSettings.cold
  grid := RateGrid.cold
  zones := List.replicate Config.zoneCount Zone.cold
  classes := List.replicate Config.classCount ClassRec.cold
  carriers := []
  containers := []
  directory := []
  batches := []
  quiesce := .active
  nextBatch := 1
  lastServed := .floor
  portCount := 0
  owed := []
  heldOver := .none
  claims := []
  capture := none
  moreFaults := false
  watch := Watch.cold
  alerts := []
  overflow := false
  doorLevel := 0

/-- The machine right after reset: in RUN after a cold start (R197), with BACKUP_LOST captured, its CAPTURE alert
queued (R167, R178), and every strap and door pin low (DESIGN CHOICE, log entry 8). -/
def State.reset : State :=
  { State.unpowered with
    power := .run
    checkWord := true
    capture := some
      { kind := .backupLost, source := .power, label := none, loc := none, zone := none, stamp := none,
        blocked := none }
    alerts :=
      [{ kind := .capture, subject := .captureUnit, retired := false, stamp := none, count := 1,
         value := some (.captured .backupLost) }] }

/-- Reasons a step stops with a fault. No rule of the spec stops the part: the spec's own faults are records of the
Capture Unit (R158). The constructor is raised by nothing, so no difference from the part can come of it (safe). -/
inductive Fault where
  | machineStopped
  deriving DecidableEq, Repr

/-- Reasons a step is refused. `notModelled` is raised by an arm of exec whose command has no meaning yet (safe: the
model stops where the part goes on). -/
inductive Refusal where
  | notModelled (mnemonic : String)
  deriving DecidableEq, Repr

/-- What one command gives. -/
abbrev Result := Host.Outcome State Fault Refusal

end Sys2Proof.Machine
end

