-- ==== Sys2Proof/Machine/Ops.lean ====
section
/-! DEFINITION. The named operations over the tables of State: sparse tables, zones, classes, items, the Label
Directory, chains, the Zone Map, claims, the Alert Queue and the Capture Unit. -/

namespace Sys2Proof.Machine

/-! Sparse tables: (number, record) pairs in strictly rising order of number -/

/-- The record listed under a number. -/
def tabGet {α : Type} : List (Nat × α) → Nat → Option α
  | [], _ => none
  | (k, v) :: rest, n => if k = n then some v else tabGet rest n

/-- List a record under a number, in its place. -/
def tabPut {α : Type} : List (Nat × α) → Nat → α → List (Nat × α)
  | [], n, x => [(n, x)]
  | (k, v) :: rest, n, x =>
    if n < k then (n, x) :: (k, v) :: rest
    else if n = k then (n, x) :: rest
    else (k, v) :: tabPut rest n x

/-- Take the record of a number out. -/
def tabDel {α : Type} : List (Nat × α) → Nat → List (Nat × α)
  | [], _ => []
  | (k, v) :: rest, n => if k = n then rest else (k, v) :: tabDel rest n

/-- The lowest number at or above `n` that the table, listed from `n` on, does not hold. -/
def tabFreeFrom {α : Type} : Nat → List (Nat × α) → Nat
  | n, [] => n
  | n, (k, _) :: rest => if k = n then tabFreeFrom (n + 1) rest else n

/-- The lowest free number below a limit (R1, R88). -/
def tabFree {α : Type} (limit : Nat) (t : List (Nat × α)) : Option Nat :=
  if tabFreeFrom 0 t < limit then some (tabFreeFrom 0 t) else none

/-- The canonical form of a sparse table: numbers strictly rising. -/
def tabWf {α : Type} : List (Nat × α) → Bool
  | [] => true
  | [_] => true
  | (a, _) :: (b, y) :: rest => decide (a < b) && tabWf ((b, y) :: rest)

/-! Links -/

/-- The other link. -/
def otherLink : Link → Link
  | .host => .floor
  | .floor => .host

/-- A link's Frame Engine. -/
def State.link (s : State) : Link → LinkState
  | .host => s.hostLink
  | .floor => s.floorLink

/-- Write a link's Frame Engine. -/
def State.setLink (s : State) (l : Link) (ls : LinkState) : State :=
  match l with
  | .host => { s with hostLink := ls }
  | .floor => { s with floorLink := ls }

/-- Put a request or a reply into a link's hand, or empty it. -/
def State.setHand (s : State) (l : Link) (h : Option Hand) : State :=
  s.setLink l { s.link l with hand := h }

/-! Zones and classes -/

/-- A zone record. -/
def State.zone (s : State) (n : Nat) : Zone := s.zones.getD n Zone.cold

/-- Write a zone record. -/
def State.setZone (s : State) (n : Nat) (z : Zone) : State := { s with zones := s.zones.set n z }

/-- Change a zone record. -/
def State.modZone (s : State) (n : Nat) (f : Zone → Zone) : State := s.setZone n (f (s.zone n))

/-- Change the record of a zone that may be absent. -/
def State.modZoneOpt (s : State) (n : Option Nat) (f : Zone → Zone) : State :=
  match n with
  | none => s
  | some n => s.modZone n f

/-- A class record. -/
def State.cls (s : State) (n : Nat) : ClassRec := s.classes.getD n ClassRec.cold

/-- Write a class record. -/
def State.setCls (s : State) (n : Nat) (c : ClassRec) : State := { s with classes := s.classes.set n c }

/-- Values that stand for an undefined class: unlimited, no recovery, no bake. A live carrier's class is always
defined (R51, R57), so no settle of a run reads them (log entry 20). -/
def undefinedValues : ClassValues where
  limit := 0
  warn := 1
  ceiling := 0
  bakeRequirement := 16
  bakeBudget := 0

/-- The class values in force for a class (R8, R50). -/
def State.classValues (s : State) (n : Nat) : ClassValues := (s.cls n).values.getD undefinedValues

/-! Items and the Label Directory -/

/-- A carrier record, `none` for a free slot. -/
def State.carrier (s : State) (n : Nat) : Option Carrier := tabGet s.carriers n

/-- Write a carrier record. -/
def State.setCarrier (s : State) (n : Nat) (c : Carrier) : State := { s with carriers := tabPut s.carriers n c }

/-- Change a live carrier record. -/
def State.modCarrier (s : State) (n : Nat) (f : Carrier → Carrier) : State :=
  match s.carrier n with
  | none => s
  | some c => s.setCarrier n (f c)

/-- A container record, `none` for a free number. -/
def State.container (s : State) (n : Nat) : Option Container := tabGet s.containers n

/-- Write a container record. -/
def State.setContainer (s : State) (n : Nat) (c : Container) : State :=
  { s with containers := tabPut s.containers n c }

/-- Change a live container record. -/
def State.modContainer (s : State) (n : Nat) (f : Container → Container) : State :=
  match s.container n with
  | none => s
  | some c => s.setContainer n (f c)

/-- The item a label names (R66). -/
def State.find (s : State) (label : Label) : Option Item :=
  (s.directory.find? fun e => e.1 = label).map (·.2)

/-- The label of an item, empty for an item that no entry names. -/
def State.labelOf (s : State) (it : Item) : Label :=
  ((s.directory.find? fun e => e.2 = it).map (·.1)).getD []

/-- Enter a label (R78, R92). -/
def State.addLabel (s : State) (label : Label) (it : Item) : State :=
  { s with directory := s.directory ++ [(label, it)] }

/-- Free the entry of an item (R83, R93). -/
def State.dropLabel (s : State) (it : Item) : State :=
  { s with directory := s.directory.filter fun e => e.2 ≠ it }

/-- An alert's subject for an item, with its label as it stands (R168). -/
def State.itemSubject (s : State) (it : Item) : Subject := .item it (s.labelOf it)

/-- The in-transit mark of an item. -/
def State.inTransit (s : State) : Item → Bool
  | .carrier n => ((s.carrier n).map (·.inTransit)).getD false
  | .container n => ((s.container n).map (·.inTransit)).getD false

/-- The change stamp of an item (R156). -/
def State.stampOf (s : State) : Item → Nat
  | .carrier n => ((s.carrier n).map (·.stamp)).getD 0
  | .container n => ((s.container n).map (·.stamp)).getD 0

/-- A change stamp advanced once: from 65535 to 1 (R156). -/
def nextStamp (n : Nat) : Nat := if 65535 ≤ n then 1 else n + 1

/-- Advance a carrier's change stamp. -/
def State.bumpCarrier (s : State) (n : Nat) : State := s.modCarrier n fun c => { c with stamp := nextStamp c.stamp }

/-- Advance a carrier's change stamp when `b` holds. -/
def State.bumpCarrierIf (s : State) (n : Nat) (b : Bool) : State := if b then s.bumpCarrier n else s

/-- Advance a container's change stamp (R103). -/
def State.bumpContainer (s : State) (n : Nat) : State :=
  s.modContainer n fun c => { c with stamp := nextStamp c.stamp }

/-- Set or clear an item's in-transit mark. -/
def State.markCarrier (b : Bool) (s : State) (n : Nat) : State := s.modCarrier n fun c => { c with inTransit := b }

/-- Set or clear a container's in-transit mark. -/
def State.markContainer (b : Bool) (s : State) (n : Nat) : State :=
  s.modContainer n fun c => { c with inTransit := b }

/-! Chains and subtrees (5.2) -/

/-- The members of a container, in nesting order. -/
def State.members (s : State) (n : Nat) : List Item := ((s.container n).map (·.members)).getD []

/-- The container a parent names. -/
def Parent.container? : Option Parent → Option Nat
  | some (.container n) => some n
  | _ => none

/-- The parent container of a container. -/
def State.parentOf (s : State) (n : Nat) : Option Nat := Parent.container? ((s.container n).bind (·.parent))

/-- The chain from a container upward, itself first; `fuel` bounds its length (R90: 3). -/
def State.chainFuel (s : State) : Nat → Nat → List Nat
  | 0, _ => []
  | fuel + 1, n =>
    n :: (match s.parentOf n with
      | none => []
      | some p => s.chainFuel fuel p)

/-- The chain from a container upward, itself first (R91). -/
def State.chain (s : State) (n : Nat) : List Nat := s.chainFuel Config.depthLimit n

/-- The chain above a parent: empty for a place or no parent. -/
def State.chainOfParent (s : State) (p : Option Parent) : List Nat :=
  match Parent.container? p with
  | none => []
  | some n => s.chain n

/-- A container's own packed flag. -/
def State.packedFlag (s : State) (n : Nat) : Bool := ((s.container n).map (·.packed)).getD false

/-- A container is effectively packed when it or any container above it is packed (R91). -/
def State.effectivelyPacked (s : State) (n : Nat) : Bool := (s.chain n).any s.packedFlag

/-- The top-level container of a container's chain (R91). -/
def State.topOf (s : State) (n : Nat) : Nat := (s.chain n).getLastD n

/-- The place of a container's chain: the (zone, location code) pair of its top-level container (R91). -/
def State.placeOf (s : State) (n : Nat) : Option (Nat × Nat) :=
  match (s.container (s.topOf n)).bind (·.parent) with
  | some (.place z loc) => some (z, loc)
  | _ => none

/-- The place of a chain as a parent. -/
def State.placeParent (s : State) (n : Nat) : Option Parent := (s.placeOf n).map fun p => .place p.1 p.2

/-- The location code a parent gives: its own pair's, or that of its chain's place (R91). -/
def State.locOfParent (s : State) : Option Parent → Option Nat
  | none => none
  | some (.place _ loc) => some loc
  | some (.container n) => (s.placeOf n).map (·.2)

/-- The carriers below a container, depth-first in member order (R128). -/
def State.subCarriersFuel (s : State) : Nat → Nat → List Nat
  | 0, _ => []
  | fuel + 1, n =>
    (s.members n).flatMap fun
      | .carrier c => [c]
      | .container m => s.subCarriersFuel fuel m

/-- The carriers below a container, depth-first in member order. -/
def State.subCarriers (s : State) (n : Nat) : List Nat := s.subCarriersFuel Config.depthLimit n

/-- A container and every container below it. -/
def State.subContainersFuel (s : State) : Nat → Nat → List Nat
  | 0, _ => []
  | fuel + 1, n =>
    n :: (s.members n).flatMap fun
      | .carrier _ => []
      | .container m => s.subContainersFuel fuel m

/-- A container and every container below it. -/
def State.subContainers (s : State) (n : Nat) : List Nat := s.subContainersFuel Config.depthLimit n

/-- The height of a container (R90). -/
def State.heightFuel (s : State) : Nat → Nat → Nat
  | 0, _ => 0
  | fuel + 1, n =>
    1 + ((s.members n).map fun
      | .carrier _ => 0
      | .container m => s.heightFuel fuel m).foldl max 0

/-- The height of a container (R90). -/
def State.height (s : State) (n : Nat) : Nat := s.heightFuel (Config.depthLimit + 1) n

/-- The stored subtree carrier count of a container. -/
def State.subtreeCount (s : State) (n : Nat) : Nat := ((s.container n).map (·.subtree)).getD 0

/-- The carriers an item brings: 1 for a carrier, its subtree carrier count for a container (R94). -/
def State.itemCarriers (s : State) : Item → Nat
  | .carrier _ => 1
  | .container n => s.subtreeCount n

/-- Raise the subtree carrier counts of containers (R90). -/
def State.addSubtree (s : State) (ns : List Nat) (k : Nat) : State :=
  ns.foldl (fun s n => s.modContainer n fun c => { c with subtree := c.subtree + k }) s

/-- Lower the subtree carrier counts of containers (R90). -/
def State.subSubtree (s : State) (ns : List Nat) (k : Nat) : State :=
  ns.foldl (fun s n => s.modContainer n fun c => { c with subtree := c.subtree - k }) s

/-- Set the depth of a container and of every container below it (R90). -/
def State.setDepthsFuel : Nat → Nat → Nat → State → State
  | 0, _, _, s => s
  | fuel + 1, n, d, s =>
    (s.members n).foldl
      (fun s it =>
        match it with
        | .carrier _ => s
        | .container m => State.setDepthsFuel fuel m (d + 1) s)
      (s.modContainer n fun c => { c with depth := d })

/-- Set the depth of a container and of every container below it (R90). -/
def State.setDepths (s : State) (n d : Nat) : State := State.setDepthsFuel Config.depthLimit n d s

/-- Append an item to a member list (R89). -/
def State.addMember (s : State) (n : Nat) (it : Item) : State :=
  s.modContainer n fun c => { c with members := c.members ++ [it] }

/-- Take an item out of a member list, keeping the order of the rest (R89). -/
def State.dropMember (s : State) (n : Nat) (it : Item) : State :=
  s.modContainer n fun c => { c with members := c.members.filter (· ≠ it) }

/-! The Zone Map (4.3) -/

/-- A window of base B and size 2^k contains a location code (R72). -/
def windowContains (base k loc : Nat) : Bool := decide (base ≤ loc) && decide (loc < base + 2 ^ k)

/-- The better of a zone found so far and the next zone: the smaller window, the lower number on a tie (R72). -/
def mapStep (s : State) (loc : Nat) (best : Option Nat) (n : Nat) : Option Nat :=
  let c := (s.zone n).cfg
  if c.active && windowContains c.base c.k loc then
    match best with
    | none => some n
    | some b => if c.k < (s.zone b).cfg.k then some n else some b
  else best

/-- The zone a location code maps to (R72). -/
def State.mapLoc (s : State) (loc : Nat) : Option Nat := (List.range Config.zoneCount).foldl (mapStep s loc) none

/-! Claims (chapter 8) -/

/-- The claim on an item. -/
def State.claimOf (s : State) (it : Item) : Option Claim := s.claims.find? fun c => c.item = it

/-- The link that claims an item, when it is the other link. -/
def State.otherClaim (s : State) (l : Link) (it : Item) : Option Link :=
  match s.claimOf it with
  | none => none
  | some c => if c.link = l then none else some c.link

/-- A link's claim limit (R148). -/
def State.claimLimit (s : State) : Link → Nat
  | .host => s.settings.hostLimit
  | .floor => s.settings.floorLimit

/-- Reload a link's claim on an item, if it holds one (R151). -/
def State.reloadClaim (s : State) (l : Link) (it : Item) : State :=
  { s with
    claims := s.claims.map fun c => if c.item = it ∧ c.link = l then { c with seconds := s.claimLimit l } else c }

/-- Free any claim on an item. -/
def State.freeClaim (s : State) (it : Item) : State := { s with claims := s.claims.filter fun c => c.item ≠ it }

/-- The number of claims a link holds (R147). -/
def State.claimsHeld (s : State) (l : Link) : Nat := (s.claims.filter fun c => c.link = l).length

/-! The Alert Queue (chapter 10) -/

/-- The rank of an alert kind (R169). -/
def AlertKind.rank : AlertKind → Nat
  | .expired => 3
  | .spent => 3
  | .capture => 3
  | .zoneDegraded => 3
  | .warned => 2
  | .bakeRefused => 2
  | .claimLapsed => 2
  | .outage => 2
  | .leftBehind => 2
  | .bakeDone => 1
  | .recovered => 1
  | .zoneRestored => 1
  | .batchDone => 1

/-- Two raisings have the same subject (R169): the same live item, zone, batch number or unit. -/
def Subject.same : Subject → Subject → Bool
  | .item a _, .item b _ => a = b
  | .zone a, .zone b => a = b
  | .batch a _, .batch b _ => a = b
  | .captureUnit, .captureUnit => true
  | .powerController, .powerController => true
  | _, _ => false

/-- A queued entry has a raising's kind and subject. A retired item is a subject of its own (R173). -/
def Alert.isFor (a : Alert) (k : AlertKind) (subj : Subject) : Bool :=
  decide (a.kind = k) && a.subject.same subj && !a.retired

/-- A coalesced value, by kind (R170). -/
def mergeValue (k : AlertKind) (old new : Option AlertValue) : Option AlertValue :=
  match k with
  | .zoneDegraded => new
  | .capture => new
  | .claimLapsed => new
  | .batchDone => new
  | .outage =>
    match old, new with
    | some (.minutes a), some (.minutes b) => some (.minutes (min (a + b) Config.minutesMax))
    | _, _ => new
  | _ => old

/-- A coalesced subject: a batch's kind becomes the later batch's (R173); every other subject is kept. -/
def mergeSubject (old new : Subject) : Subject :=
  match old, new with
  | .batch _ _, .batch n k => .batch n k
  | _, _ => old

/-- Fold a raising into its entry (R170). -/
def Alert.coalesce (a : Alert) (subj : Subject) (stamp : Option Word) (v : Option AlertValue) : Alert :=
  { a with
    subject := mergeSubject a.subject subj
    stamp := stamp
    count := min (a.count + 1) 255
    value := mergeValue a.kind a.value v }

/-- A raising removes this entry by supersession (R171). -/
def Alert.supersededBy (a : Alert) (k : AlertKind) (subj : Subject) : Bool :=
  match k with
  | .expired => a.isFor .warned subj
  | .spent => a.isFor .warned subj || a.isFor .expired subj
  | _ => false

/-- The lowest rank present among entries (R172). -/
def lowestRank (as : List Alert) : Nat := as.foldl (fun m a => min m a.kind.rank) 3

/-- Take a raising whole: coalescing, then supersession, then the test for room (R170 to R172). -/
def State.raise (k : AlertKind) (subj : Subject) (v : Option AlertValue) (s : State) : State :=
  let hit := s.alerts.any fun a => a.isFor k subj
  let merged := s.alerts.map fun a => if a.isFor k subj then a.coalesce subj s.clock v else a
  let kept := merged.filter fun a => !a.supersededBy k subj
  if hit then { s with alerts := kept }
  else
    let entry : Alert := { kind := k, subject := subj, retired := false, stamp := s.clock, count := 1, value := v }
    if kept.length < Config.alertLimit then { s with alerts := kept ++ [entry] }
    else if lowestRank kept < k.rank then
      { s with
        alerts := (kept.eraseP fun a => a.kind.rank = lowestRank kept) ++ [entry]
        overflow := true }
    else { s with alerts := kept, overflow := true }

/-- Mark the entries of a retired item (R173). -/
def State.retireSubject (s : State) (it : Item) : State :=
  { s with
    alerts := s.alerts.map fun a =>
      match a.subject with
      | .item b _ => if b = it then { a with retired := true } else a
      | _ => a }

/-! The Capture Unit (chapter 9) -/

/-- The record is HELD_FAULT (9.1). -/
def State.heldFault (s : State) : Bool :=
  match s.capture with
  | none => false
  | some r => decide (r.kind ≠ .watchMatch)

/-- The record is HELD_MATCH (9.1). -/
def State.heldMatch (s : State) : Bool :=
  match s.capture with
  | none => false
  | some r => decide (r.kind = .watchMatch)

/-- Fill an EMPTY record and raise CAPTURE (R158). -/
def State.fillCapture (s : State) (r : CaptureRec) : State :=
  { s with capture := some r }.raise .capture .captureUnit (some (.captured r.kind))

/-- Hand a fault to the Capture Unit (R158, R159). -/
def State.raiseFault (kind : CaptureKind) (source : CaptureSource) (label : Option Label) (loc zone : Option Nat)
    (s : State) : State :=
  match s.capture with
  | some _ => { s with moreFaults := true }
  | none =>
    s.fillCapture
      { kind := kind, source := source, label := label, loc := loc, zone := zone, stamp := s.clock, blocked := none }

/-- The capture source of a link. -/
def linkSource : Link → CaptureSource
  | .host => .hostLink
  | .floor => .floorLink

/-- The bit of the watch's source mask that names a source (R163). -/
def Watch.names (w : Watch) : CaptureSource → Bool
  | .hostLink => w.mask.getLsbD 0
  | .floorLink => w.mask.getLsbD 1
  | .batch => w.mask.getLsbD 2
  | .ambient => false
  | .power => false

/-- An armed watch is suspended while the record is HELD_FAULT (R166). -/
def State.watchSuspended (s : State) : Bool := s.watch.armed && s.heldFault

/-- An arrival matches the watch (R164). An armed watch that is not suspended always meets an EMPTY record (R166). -/
def State.watchMatches (s : State) (src : CaptureSource) (loc : Nat) : Bool :=
  s.watch.armed && s.capture.isNone && windowContains s.watch.base s.watch.k loc && s.watch.names src

/-- Take a match: fill the record, disarm the watch, raise CAPTURE (R165). -/
def State.takeMatch (s : State) (src : CaptureSource) (label : Label) (loc zone : Nat) (blocked : Bool) : State :=
  { s with watch := { s.watch with armed := false } }.fillCapture
    { kind := .watchMatch, source := src, label := some label, loc := some loc, zone := some zone, stamp := s.clock,
      blocked := some blocked }

/-- Test an arrival that the block option can refuse: the state after, and whether it was blocked (R165). -/
def State.testArrival (s : State) (src : CaptureSource) (label : Label) (loc zone : Nat) : State × Bool :=
  if s.watchMatches src loc then (s.takeMatch src label loc zone s.watch.block, s.watch.block) else (s, false)

/-- Test an arrival of a final step, which the block option does not refuse (R131, R165). -/
def State.testFinalArrival (s : State) (label : Label) (loc zone : Nat) : State :=
  if s.watchMatches .batch loc then s.takeMatch .batch label loc zone false else s

/-! The Zone Map lookup of a request (R74) -/

/-- The fault of a location that maps to no active zone (R74, R127). -/
def State.unmappedFault (s : State) (l : Link) (label : Option Label) (loc : Nat) : State :=
  s.raiseFault .unmapped (linkSource l) label (some loc) none

end Sys2Proof.Machine
end

