-- ==== Sys2Proof/Machine/Flags.lean ====
section
/-! DEFINITION. What is formed from State and not stored: whether the part runs, ATTN, due heads, door line states,
indicator patterns and levels, counts reported by STATUS. -/

namespace Sys2Proof.Machine

/-! Power -/

/-- Every block runs: RUN with RESETn deasserted (R192, R196). -/
def State.running (s : State) : Bool := decide (s.power = .run) && !s.resetAsserted

/-- The links take frames and the arbiter makes grants: running, and no power-fail warning taken (R193). -/
def State.receiving (s : State) : Bool := s.running && !s.windDown

/-! The attention line -/

/-- The level of ATTN (R174): low in RETAIN and while RESETn is asserted. -/
def State.attn (s : State) : Bool := s.running && !s.alerts.isEmpty

/-! Due heads (R40) -/

/-- The key of a list's head (R37). -/
def headKey : List KeyEntry → Option Nat
  | [] => none
  | e :: _ => some e.key

/-- A list head is due when its key is at or below the integral (R40). -/
def headDue (l : List KeyEntry) (integral : Nat) : Bool :=
  match l with
  | [] => false
  | e :: _ => decide (e.key ≤ integral)

/-- The E-list head is due. -/
def Zone.eDue (z : Zone) : Bool := headDue z.eList z.e

/-- The P-list head is due. -/
def Zone.pDue (z : Zone) : Bool := headDue z.pList z.p

/-- A zone is due while either head is (R40). -/
def Zone.due (z : Zone) : Bool := z.eDue || z.pDue

/-- The lowest-numbered due zone (R41). -/
def State.dueZone (s : State) : Option Nat := (List.range Config.zoneCount).find? fun n => (s.zone n).due

/-- The carrier the next drain settles: the due E head of the lowest-numbered due zone before its P head (R41). -/
def State.drainSlot (s : State) : Option Nat :=
  match s.dueZone with
  | none => none
  | some n =>
    let z := s.zone n
    match if z.eDue then z.eList else z.pList with
    | [] => none
    | e :: _ => some e.slot

/-- Keys filed across all zones: the list nodes in use (R38). -/
def State.nodesInUse (s : State) : Nat := (s.zones.map fun z => z.eList.length + z.pList.length).sum

/-! Batches -/

/-- The RUNNING batch: the oldest record unless the state is QUIESCED (R124). -/
def State.runningBatch (s : State) : Option Batch :=
  if s.quiesce = .quiesced then none else s.batches.head?

/-- A batch step is waiting while a batch is RUNNING (R143). -/
def State.stepWaiting (s : State) : Bool := s.runningBatch.isSome

/-- The kind of a batch as reported (R124, R186). -/
def BatchJob.kind : BatchJob → BatchKind
  | .move .. => .move
  | .pack .. => .pack
  | .unpack .. => .unpack
  | .nesting .. => .reparent
  | .unnesting .. => .reparent
  | .revision .. => .classRevision
  | .evacuate .. => .evacuate

/-! Doors -/

/-- A door line is open: its level read through its inversion (R112). -/
def State.lineOpen (s : State) (n : Nat) : Bool := s.doorLevel.getLsbD n ^^ s.settings.inversion.getLsbD n

/-- The state of the line a zone follows; no line reads closed (R113). -/
def State.doorOf (s : State) : Option Nat → Bool
  | none => false
  | some n => s.lineOpen n

/-! Indicators (6.4) -/

/-- Indicator patterns in rising order (R120). -/
inductive Pattern where
  | off
  | steady
  | slow
  | pulse
  | fast
  deriving DecidableEq, Repr

/-- The order of patterns on a shared line: FAST, PULSE, SLOW, STEADY, OFF (R120). -/
def Pattern.order : Pattern → Nat
  | .off => 0
  | .steady => 1
  | .slow => 2
  | .pulse => 3
  | .fast => 4

/-- A zone's pattern: the first row that applies (R119). -/
def Zone.pattern (z : Zone) : Pattern :=
  if !z.cfg.active then .off
  else if 0 < z.counts.expired || 0 < z.counts.spent then .fast
  else if z.mode = .degraded then .pulse
  else if 0 < z.counts.warned then .slow
  else .steady

/-- The higher of two patterns. -/
def Pattern.higher (a b : Pattern) : Pattern := if a.order < b.order then b else a

/-- The pattern an indicator line shows: the highest among the zones that name it (R120); off unless running. -/
def State.linePattern (s : State) (line : Nat) : Pattern :=
  if s.running then
    s.zones.foldl (fun p z => if z.cfg.indicatorLine = some line then p.higher z.pattern else p) .off
  else .off

/-- A pattern's line level at a phase of the pattern clock, in eighths of a second (R120). -/
def Pattern.level (p : Pattern) (phase : Nat) : Bool :=
  match p with
  | .fast => decide (phase % 4 < 2)
  | .pulse => decide (phase % 16 < 1)
  | .slow => decide (phase % 16 < 8)
  | .steady => true
  | .off => false

/-- The level of an indicator line (R120). -/
def State.lineLevel (s : State) (line : Nat) : Bool := (s.linePattern line).level s.patternPhase

/-! Counts and flags that STATUS and the checks read -/

/-- Free carrier slots (R1). -/
def State.freeSlots (s : State) : Nat := Config.carrierSlots - s.carriers.length

/-- Free container numbers (R88). -/
def State.freeNumbers (s : State) : Nat := Config.containerNumbers - s.containers.length

/-- The batch queue has room for one more record (R125). -/
def State.batchRoom (s : State) : Bool := decide (s.batches.length < Config.batchLimit)

/-- A carrier that a gate refuses: EXPIRED, SPENT or held (R75). -/
def gateBars (life : Life) (held : Bool) : Bool := decide (life = .expired) || decide (life = .spent) || held

/-- A zone that an OVEN entry refuses to a SPENT carrier (R75). -/
def ovenBars (kind : ZoneKind) (life : Life) : Bool := decide (kind = .oven) && decide (life = .spent)

end Sys2Proof.Machine
end

