-- ==== Sys2Proof/Machine/Operands.lean ====
section
/-! DEFINITION. The operands of request commands: their link and tag, kind codes and permissions (R185), the field
checks a Frame Engine makes (R68 step 2, R183), and which requests wait for the store. -/

namespace Sys2Proof.Machine

/-- The link and tag of a request command; `none` for a command that is no request. -/
def requestOf : Instr → Option (Link × Byte)
  | .status l t => some (l, t)
  | .setClock l t _ => some (l, t)
  | .setUnit l t _ => some (l, t)
  | .erase l t => some (l, t)
  | .quiesceImmediate l t => some (l, t)
  | .quiesceConditional l t => some (l, t)
  | .resume l t => some (l, t)
  | .enrolCarrier l t .. => some (l, t)
  | .enrolContainer l t .. => some (l, t)
  | .openItem l t .. => some (l, t)
  | .place l t .. => some (l, t)
  | .pack l t .. => some (l, t)
  | .nest l t .. => some (l, t)
  | .unnest l t .. => some (l, t)
  | .retire l t .. => some (l, t)
  | .hold l t .. => some (l, t)
  | .unhold l t .. => some (l, t)
  | .evacuate l t .. => some (l, t)
  | .lookup l t .. => some (l, t)
  | .zoneInfo l t _ => some (l, t)
  | .residents l t .. => some (l, t)
  | .batchInfo l t _ => some (l, t)
  | .classInfo l t _ => some (l, t)
  | .setZone l t _ => some (l, t)
  | .setClassDefine l t .. => some (l, t)
  | .setClassRevise l t .. => some (l, t)
  | .setClassUndefine l t _ => some (l, t)
  | .setGrid l t _ => some (l, t)
  | .ambient l t .. => some (l, t)
  | .claim l t _ => some (l, t)
  | .release l t _ => some (l, t)
  | .watchSet l t .. => some (l, t)
  | .watchArm l t => some (l, t)
  | .watchDisarm l t => some (l, t)
  | .capRead l t => some (l, t)
  | .capClear l t => some (l, t)
  | .alerts l t _ => some (l, t)
  | _ => none

/-- The kind code of a request (11.5); 0 for a command that is no request. -/
def kindCode : Instr → Byte
  | .status .. => 0x01
  | .setClock .. => 0x02
  | .setUnit .. => 0x03
  | .erase .. => 0x04
  | .quiesceImmediate .. => 0x05
  | .quiesceConditional .. => 0x05
  | .resume .. => 0x06
  | .enrolCarrier .. => 0x10
  | .enrolContainer .. => 0x10
  | .openItem .. => 0x11
  | .place .. => 0x12
  | .pack .. => 0x13
  | .nest .. => 0x14
  | .unnest .. => 0x15
  | .retire .. => 0x16
  | .hold .. => 0x17
  | .unhold .. => 0x18
  | .evacuate .. => 0x19
  | .lookup .. => 0x20
  | .zoneInfo .. => 0x21
  | .residents .. => 0x22
  | .batchInfo .. => 0x23
  | .classInfo .. => 0x24
  | .setZone .. => 0x30
  | .setClassDefine .. => 0x31
  | .setClassRevise .. => 0x31
  | .setClassUndefine .. => 0x31
  | .setGrid .. => 0x32
  | .ambient .. => 0x38
  | .claim .. => 0x40
  | .release .. => 0x41
  | .watchSet .. => 0x48
  | .watchArm .. => 0x48
  | .watchDisarm .. => 0x48
  | .capRead .. => 0x49
  | .capClear .. => 0x4A
  | .alerts .. => 0x50
  | _ => 0

/-- The kind codes of the catalogue (11.5). -/
def catalogue : List Byte :=
  [0x01, 0x02, 0x03, 0x04, 0x05, 0x06,
   0x10, 0x11, 0x12, 0x13, 0x14, 0x15, 0x16, 0x17, 0x18, 0x19,
   0x20, 0x21, 0x22, 0x23, 0x24, 0x30, 0x31, 0x32, 0x38,
   0x40, 0x41, 0x48, 0x49, 0x4A, 0x50]

/-- The kind codes the Floor Link permits (R185). -/
def floorKinds : List Byte := [0x01, 0x11, 0x12, 0x13, 0x14, 0x15, 0x20, 0x21, 0x38, 0x40, 0x41]

/-- A kind is permitted on a link (R185). -/
def permitted (l : Link) (kind : Byte) : Bool :=
  match l with
  | .host => true
  | .floor => floorKinds.contains kind

/-- The kind codes whose owners wait for a store grant (11.5). -/
def storeKinds : List Byte :=
  [0x04, 0x05, 0x06, 0x10, 0x11, 0x12, 0x13, 0x14, 0x15, 0x16, 0x17, 0x18, 0x19,
   0x20, 0x21, 0x22, 0x23, 0x24, 0x30, 0x31, 0x40, 0x41]

/-- SETZONE and SETCLASS are refused with QUIESCED before they wait for the store (R27, R52). -/
def quiescedBeforeStore (kind : Byte) : Bool := kind = 0x30 || kind = 0x31

/-- A request waits for the store before its owner acts. -/
def State.waitsForStore (s : State) (c : Instr) : Bool :=
  storeKinds.contains (kindCode c) && !(quiescedBeforeStore (kindCode c) && decide (s.quiesce ≠ .active))

/-! Field checks -/

/-- A label is 4 to 16 bytes, each in 0x21 to 0x7E (R65). -/
def labelOk (l : Label) : Bool :=
  decide (4 ≤ l.length) && decide (l.length ≤ 16) && l.all fun b => decide (0x21 ≤ b.toNat) && decide (b.toNat ≤ 0x7E)

/-- A yes-or-no byte (R186). -/
def flagOk (b : Byte) : Bool := decide (b.toNat ≤ 1)

/-- A yes-or-no byte's value. -/
def flagOf (b : Byte) : Bool := decide (b ≠ 0)

/-- A door or indicator line byte: 0 to 7, or 0xFF for none (R186). -/
def lineOk (b : Byte) : Bool := decide (b.toNat ≤ 7) || decide (b = 0xFF)

/-- The line a byte names. -/
def lineOf (b : Byte) : Option Nat := if b = 0xFF then none else some b.toNat

/-- A window: k at most 16 and the base a multiple of 2^k (R27, R163). -/
def windowOk (base : Half) (k : Byte) : Bool := decide (k.toNat ≤ 16) && decide (base.toNat % 2 ^ k.toNat = 0)

/-- Strictly ascending (R62). -/
def ascending : List Int → Bool
  | [] => true
  | [_] => true
  | a :: b :: rest => decide (a < b) && ascending (b :: rest)

/-- The greatest time of a class value in minutes (R52). -/
def classMinutesMax : Nat := 1048575

/-- The ranges of class values (R52). -/
def classFieldsOk (v : ClassFields) : Bool :=
  decide (v.limit.toNat ≤ classMinutesMax) && decide (1 ≤ v.warn.toNat) && decide (v.warn.toNat ≤ 15) &&
    decide (v.ceiling.toNat ≤ classMinutesMax) && decide (1 ≤ v.bakeRequirement.toNat) &&
    decide (v.bakeRequirement.toNat ≤ classMinutesMax) && decide (v.bakeBudget.toNat ≤ 15)

/-- The ranges of SETZONE (R27). -/
def zoneFieldsOk (f : ZoneFields) : Bool :=
  decide (f.zone.toNat ≤ 63) && flagOk f.active && decide (f.kind.toNat ≤ 2) && flagOk f.gated &&
    windowOk f.base f.k && decide (f.source.toNat ≤ 1) && decide (f.staleLimit ≠ 0) && lineOk f.doorLine &&
    lineOk f.indicatorLine

/-- The temperature edges of SETGRID as signed values (R186). -/
def gridTemps (g : GridFields) : List Int := g.tempEdges.map BitVec.toInt

/-- The humidity edges of SETGRID. -/
def gridHums (g : GridFields) : List Int := g.humEdges.map fun h => (h.toNat : Int)

/-- The ranges and counts of SETGRID (R62). -/
def gridFieldsOk (g : GridFields) : Bool :=
  g.tempEdges.length = 7 && g.humEdges.length = 7 && g.exposure.length = 64 && g.recovery.length = 8 &&
    g.bake.length = 8 && ((gridTemps g).all fun t => decide (-400 ≤ t) && decide (t ≤ 2500)) &&
    ((gridHums g).all fun h => decide (h ≤ 1000)) && ascending (gridTemps g) && ascending (gridHums g)

/-- The ranges of SETUNIT (R189). -/
def unitFieldsOk (f : UnitFields) : Bool :=
  decide (f.arbiterMode.toNat ≤ 2) && decide (f.alertOrder.toNat ≤ 1) && decide (f.hostLimit ≠ 0) &&
    decide (f.floorLimit ≠ 0) && flagOk f.watchBlock

/-- The field check of a request (R68 step 2, R183 third check). AMBIENT's ranges are its owner's (R106). -/
def fieldsOk : Instr → Bool
  | .setUnit _ _ f => unitFieldsOk f
  | .enrolCarrier _ _ label cls minutes packed bakeCount loc =>
    labelOk label && decide (cls.toNat ≤ 31) && decide (minutes.toNat ≤ 268435455) && flagOk packed &&
      decide (bakeCount.toNat ≤ 15) && (flagOf packed || loc.isSome)
  | .enrolContainer _ _ label packed _ => labelOk label && flagOk packed
  | .openItem _ _ label _ _ => labelOk label
  | .place _ _ label _ _ => labelOk label
  | .pack _ _ label _ => labelOk label
  | .nest _ _ label target _ => labelOk label && labelOk target
  | .unnest _ _ label _ => labelOk label
  | .retire _ _ label _ => labelOk label
  | .hold _ _ label reason _ => labelOk label && decide (reason ≠ 0)
  | .unhold _ _ label _ => labelOk label
  | .evacuate _ _ zone _ => decide (zone.toNat ≤ 63)
  | .lookup _ _ label start => labelOk label && decide ((start.getD 0).toNat ≤ 63)
  | .zoneInfo _ _ zone => decide (zone.toNat ≤ 63)
  | .residents _ _ zone start => decide (zone.toNat ≤ 63) && decide (start.toNat ≤ 4095)
  | .batchInfo _ _ start => decide ((start.getD 0).toNat ≤ 7)
  | .classInfo _ _ cls => decide (cls.toNat ≤ 31)
  | .setZone _ _ f => zoneFieldsOk f
  | .setClassDefine _ _ cls v => decide (cls.toNat ≤ 31) && classFieldsOk v
  | .setClassRevise _ _ cls v => decide (cls.toNat ≤ 31) && classFieldsOk v
  | .setClassUndefine _ _ cls => decide (cls.toNat ≤ 31)
  | .setGrid _ _ g => gridFieldsOk g
  | .claim _ _ label => labelOk label
  | .release _ _ label => labelOk label
  | .watchSet _ _ base k mask block =>
    windowOk base k && decide (mask.toNat % 8 ≠ 0) && flagOk (block.getD 0)
  | .alerts _ _ maximum => decide (1 ≤ (maximum.getD 8).toNat) && decide ((maximum.getD 8).toNat ≤ 8)
  | _ => true

/-! Operand values -/

/-- An expected stamp: an absent field is 0, no check (R157). -/
def stampOperand (stamp : Option Half) : Nat := (stamp.getD 0).toNat

/-- A location operand. -/
def locOperand (loc : Option Half) : Option Nat := loc.map BitVec.toNat

/-- Class values in credits (R50). -/
def classValuesOf (v : ClassFields) : ClassValues where
  limit := Config.creditsPerMinute * v.limit.toNat
  warn := v.warn.toNat
  ceiling := Config.creditsPerMinute * v.ceiling.toNat
  bakeRequirement := Config.creditsPerMinute * v.bakeRequirement.toNat
  bakeBudget := v.bakeBudget.toNat

/-- The zone kind a byte codes (R186). -/
def zoneKindOf (b : Byte) : ZoneKind := if b = 0 then .floor else if b = 1 then .dry else .oven

/-- The configuration a SETZONE carries (R186). -/
def zoneConfigOf (f : ZoneFields) : ZoneConfig where
  active := flagOf f.active
  kind := zoneKindOf f.kind
  gated := flagOf f.gated
  base := f.base.toNat
  k := f.k.toNat
  source := if f.source = 0 then .grid else .fixed
  fixedRate := f.fixedRate.toNat
  staleLimit := f.staleLimit.toNat
  doorLine := lineOf f.doorLine
  doorGrace := f.doorGrace.toNat
  indicatorLine := lineOf f.indicatorLine
  outageRate := f.outageRate.toNat

/-- The grid a SETGRID carries (R186). -/
def gridOf (g : GridFields) : RateGrid where
  tempEdges := gridTemps g
  humEdges := gridHums g
  exposure := g.exposure.map BitVec.toNat
  recovery := g.recovery.map BitVec.toNat
  bake := g.bake.map BitVec.toNat

/-- The settings a SETUNIT carries (R186). -/
def settingsOf (f : UnitFields) : UnitSettings where
  arbiterMode := if f.arbiterMode = 0 then .portsFirst else if f.arbiterMode = 1 then .batchFirst else .batchExclusive
  alertOrder := if f.alertOrder = 0 then .age else .rank
  hostLimit := f.hostLimit.toNat
  floorLimit := f.floorLimit.toNat
  staleRate := f.staleRate.toNat
  watchBlock := flagOf f.watchBlock
  inversion := f.inversion

end Sys2Proof.Machine
end

