-- ==== Sys2Proof/Machine/Air.lean ====
section
/-! DEFINITION. Bands, rates and mode of a zone (R31 to R33, R61), the counters of a zone's minute event (R35, R109,
R115), doors (R112 to R116), and the events a counter has made due. -/

namespace Sys2Proof.Machine

/-! Bands and rates -/

/-- The band of a value: the number of edges it reaches or exceeds (R61). -/
def bandOf (edges : List Int) (v : Int) : Nat := (edges.filter fun e => decide (e ≤ v)).length

/-- The temperature band of a reading. -/
def RateGrid.tempBand (g : RateGrid) (r : Reading) : Nat := bandOf g.tempEdges r.temp

/-- The humidity band of a reading. -/
def RateGrid.humBand (g : RateGrid) (r : Reading) : Nat := bandOf g.humEdges r.hum

/-- grid[t][h] for a reading (R60). -/
def RateGrid.exposureRate (g : RateGrid) (r : Reading) : Nat := g.exposure.getD (8 * g.tempBand r + g.humBand r) 0

/-- recovery row[h] for a reading (R60). -/
def RateGrid.recoveryRate (g : RateGrid) (r : Reading) : Nat := g.recovery.getD (g.humBand r) 0

/-- bake row[t] for a reading (R60). -/
def RateGrid.bakeRate (g : RateGrid) (r : Reading) : Nat := g.bake.getD (g.tempBand r) 0

/-- A row or grid entry, replaced by the fixed rate under FIXED (R32). -/
def ZoneConfig.sourced (c : ZoneConfig) (entry : Nat) : Nat := if c.source = .fixed then c.fixedRate else entry

/-- The E and P rates of a zone that is not stale, from its last valid reading (R32). -/
def readingRates (g : RateGrid) (z : Zone) (r : Reading) : Nat × Nat :=
  match z.cfg.kind with
  | .floor => (z.cfg.sourced (g.exposureRate r), 0)
  | .dry => if z.doorDegraded then (g.exposureRate r, 0) else (0, z.cfg.sourced (g.recoveryRate r))
  | .oven => if z.doorDegraded then (g.exposureRate r, 0) else (0, z.cfg.sourced (g.bakeRate r))

/-- The E and P rates of a zone (R32). A zone that is not stale has a reading; one without is charged as stale
(log entry 19). -/
def zoneRates (g : RateGrid) (staleRate : Nat) (z : Zone) : Nat × Nat :=
  if !z.cfg.active then (0, 0)
  else if z.stale then (staleRate, 0)
  else
    match z.reading with
    | none => (staleRate, 0)
    | some r => readingRates g z r

/-- The mode of a zone (R30, R31): an inactive zone's is reported as NORMAL. -/
def zoneMode (z : Zone) : ZoneMode := if z.cfg.active && (z.stale || z.doorDegraded) then .degraded else .normal

/-- Recompute a zone's mode and rates (R33). -/
def State.recompute (s : State) (z : Zone) : Zone :=
  { z with
    mode := zoneMode z
    eRate := (zoneRates s.grid s.settings.staleRate z).1
    pRate := (zoneRates s.grid s.settings.staleRate z).2 }

/-- Recompute a zone in place, with no alert (R33). -/
def State.recomputeZone (s : State) (n : Nat) : State := s.modZone n s.recompute

/-- Write a changed zone with its mode and rates recomputed, and raise ZONE_DEGRADED with the cause, or
ZONE_RESTORED, when an active zone's mode changes (R33, R111). -/
def State.putZone (cause : Cause) (n : Nat) (z : Zone) (s : State) : State :=
  let old := s.zone n
  let new := s.recompute z
  let s' := s.setZone n new
  if old.cfg.active && new.cfg.active then
    match old.mode, new.mode with
    | .normal, .degraded => s'.raise .zoneDegraded (.zone n) (some (.cause cause))
    | .degraded, .normal => s'.raise .zoneRestored (.zone n) none
    | _, _ => s'
  else s'

/-! The zone minute event -/

/-- First place: the integrals advance by the rates in force (R35). -/
def Zone.advance (z : Zone) : Zone := { z with e := z.e + z.eRate, p := z.p + z.pRate }

/-- Second place: the staleness countdown runs while the zone is not stale (R109). -/
def Zone.runCountdown (z : Zone) : Zone := if z.stale then { z with countdown := 0 } else { z with countdown := z.countdown - 1 }

/-- Second place: the open minutes of an open door run (R115). -/
def Zone.runOpenMinutes (z : Zone) : Zone :=
  if z.doorOpen then { z with openMinutes := min (z.openMinutes + 1) 255 } else z

/-- A zone's minute event, less the events its counters make due (R35). Inactive zones take none. -/
def Zone.minute (z : Zone) : Zone := if z.cfg.active then z.advance.runCountdown.runOpenMinutes else z

/-! Events a counter makes due -/

/-- The staleness countdown has reached 0 and the stale flag is not yet set (R109). -/
def Zone.expiryDue (z : Zone) : Bool := z.cfg.active && !z.stale && decide (z.countdown = 0)

/-- The open minutes have reached the door grace and the zone is not yet door-degraded (R115). -/
def Zone.graceDue (z : Zone) : Bool :=
  z.cfg.active && z.doorOpen && !z.doorDegraded && decide (z.cfg.doorGrace ≤ z.openMinutes)

/-- Take a zone's staleness expiry if it is due (R109). -/
def State.takeExpiry (s : State) (n : Nat) : State :=
  if (s.zone n).expiryDue then s.putZone .stale n { s.zone n with stale := true } else s

/-- Take a zone's onset of door-degradation if it is due (R115). -/
def State.takeGrace (s : State) (n : Nat) : State :=
  if (s.zone n).graceDue then s.putZone .door n { s.zone n with doorDegraded := true } else s

/-- Free a claim that has run out and raise CLAIM_LAPSED (R153). -/
def State.lapse (s : State) (c : Claim) : State :=
  (s.freeClaim c.item).raise .claimLapsed (s.itemSubject c.item) (some (.link c.link))

/-- A claim's remaining seconds have reached 0 (R153). -/
def Claim.lapseDue (c : Claim) : Bool := decide (c.seconds = 0)

/-- Take one zone's due events: the expiry before the grace. -/
def State.takeZoneDue (s : State) (n : Nat) : State := (s.takeExpiry n).takeGrace n

/-- Take every event that a counter has made due and no command has taken yet (log entry 4): the expiries and graces
in ascending zone order, then the lapses. Each belongs to the minute or second event that made it due (R35, R153),
so nothing else is taken before it. -/
def State.takeDue (s : State) : State :=
  if s.running then
    let s1 := (List.range Config.zoneCount).foldl State.takeZoneDue s
    (s1.claims.filter Claim.lapseDue).foldl State.lapse s1
  else s

/-! Doors -/

/-- A zone takes an opening of its door line (R114). -/
def State.openDoor (s : State) (n : Nat) : State :=
  let z := s.zone n
  let z := { z with doorOpen := true, openMinutes := 0, doorEvents := min (z.doorEvents + 1) 255 }
  if z.cfg.doorGrace = 0 then s.putZone .door n { z with doorDegraded := true } else s.setZone n z

/-- A zone takes a closing of its door line (R116). -/
def State.closeDoor (s : State) (n : Nat) : State :=
  let z := s.zone n
  let z := { z with doorOpen := false, openMinutes := 0 }
  if z.doorDegraded then s.putZone .door n { z with doorDegraded := false } else s.setZone n z

/-- A zone follows a door line: it is active and names the line (R112). -/
def Zone.follows (z : Zone) (line : Nat) : Bool := z.cfg.active && decide (z.cfg.doorLine = some line)

/-- Deliver a line's new state to every active zone that follows it, in ascending zone order (R112). -/
def State.deliverDoor (s : State) (line : Nat) (opened : Bool) : State :=
  (List.range Config.zoneCount).foldl
    (fun s n => if (s.zone n).follows line then (if opened then s.openDoor n else s.closeDoor n) else s) s

/-- A zone with its door line sampled afresh and no door event latched (R29, R117, R122). -/
def State.sampleDoor (s : State) (z : Zone) : Zone :=
  let isOpen := s.doorOf z.cfg.doorLine
  { z with doorOpen := isOpen, openMinutes := 0, doorDegraded := isOpen && decide (z.cfg.doorGrace = 0) }

end Sys2Proof.Machine
end

