-- ==== Sys2Proof/Machine/Settle.lean ====
section
/-! DEFINITION. Settle (1.4), deadline lists (2.5), segments (1.5) and residence change (R3, R4). -/

namespace Sys2Proof.Machine

/-! One account, as a function of the class values, the zone's integrals and the time -/

/-- The warning level W = L × warn fraction / 16, rounded down (R13). -/
def ClassValues.warnLevel (v : ClassValues) : Nat := v.limit * v.warn / 16

/-- A limited class has thresholds (R13). -/
def ClassValues.limited (v : ClassValues) : Bool := decide (v.limit ≠ 0)

/-- The new exposure x (R9). -/
def newExposure (c : Carrier) (dE dP : Nat) : Nat :=
  match c.mode with
  | .accrue => min (c.base + dE) Config.accountMax
  | .rest => if c.eligible then min (c.base + dE - dP) Config.accountMax else min (c.base + dE) Config.accountMax
  | .bake => min (c.base + dE) Config.accountMax
  | .still => c.base

/-- The new bake progress (R9). -/
def newProgress (c : Carrier) (dP : Nat) : Nat :=
  match c.mode with
  | .bake => min (c.progress + dP) Config.accountMax
  | _ => c.progress

/-- Steps 1 and 2 of a settle: exposure, progress, anchors and open segment (R9, R10). -/
def charge (e p : Nat) (c : Carrier) : Carrier :=
  let x := newExposure c (e - c.aE) (p - c.aP)
  { c with
    base := x
    progress := newProgress c (p - c.aP)
    aE := e
    aP := p
    openSeg := { c.openSeg with credits := c.openSeg.credits + ((x : Int) - (c.base : Int)) } }

/-- The conditions of a bake completion (R11). -/
def bakeReady (v : ClassValues) (c : Carrier) : Bool :=
  decide (c.mode = .bake) && decide (c.life ≠ .spent) && decide (c.bakeCount < v.bakeBudget) &&
    decide (v.bakeRequirement ≤ c.progress)

/-- A bake completion (R11). -/
def completeBake (clock : Option Word) (minute : Word) (c : Carrier) : Carrier :=
  { c with
    base := 0
    carried := 0
    closed := []
    openSeg := { c.openSeg with stamp := clock, entry := minute, credits := 0 }
    bakeCount := c.bakeCount + 1
    life := .fresh
    progress := 0 }

/-- The life status after threshold evaluation (R13). -/
def evaluate (v : ClassValues) (bakeCount x : Nat) (life : Life) : Life :=
  if v.limited then
    match life with
    | .spent => .spent
    | .expired => if v.bakeBudget ≤ bakeCount then .spent else .expired
    | .warned => if v.limit ≤ x then (if v.bakeBudget ≤ bakeCount then .spent else .expired) else .warned
    | .fresh =>
      if v.limit ≤ x then (if v.bakeBudget ≤ bakeCount then .spent else .expired)
      else if v.warnLevel ≤ x then .warned
      else .fresh
  else life

/-- The alert of a change of life status by threshold evaluation (R13). -/
def lifeAlert : Life → List AlertKind
  | .fresh => []
  | .warned => [.warned]
  | .expired => [.expired]
  | .spent => [.spent]

/-- Recovery eligibility (R14). -/
def eligibleNow (v : ClassValues) (c : Carrier) : Bool :=
  decide (0 < v.ceiling) && decide (c.base ≤ v.ceiling) && (decide (c.life = .fresh) || decide (c.life = .warned))

/-- The E key to file (R15). -/
def eKeyOf (v : ClassValues) (c : Carrier) : Option Nat :=
  if c.mode ≠ .still ∧ v.limited then
    match c.life with
    | .fresh => some (c.aE + (v.warnLevel - c.base))
    | .warned => some (c.aE + (v.limit - c.base))
    | .expired => none
    | .spent => none
  else none

/-- The P key to file (R16). -/
def pKeyOf (v : ClassValues) (c : Carrier) : Option Nat :=
  match c.mode with
  | .rest => if c.eligible ∧ 0 < c.base then some (c.aP + c.base) else none
  | .bake =>
    if c.life ≠ .spent ∧ c.bakeCount < v.bakeBudget then some (c.aP + (v.bakeRequirement - c.progress)) else none
  | .accrue => none
  | .still => none

/-- A settle of one record under class values and zone integrals: the record after it, and the alerts in the order
the rules raise them (R8). -/
def settleRecord (v : ClassValues) (e p : Nat) (clock : Option Word) (minute : Word) (c : Carrier) :
    Carrier × List AlertKind :=
  let charged := charge e p c
  let baked := bakeReady v charged
  let c1 := if baked then completeBake clock minute charged else charged
  let recovered := decide (c.mode = .rest) && decide (c1.base = 0) && decide (0 < c.base)
  let life := evaluate v c1.bakeCount c1.base c1.life
  let c2 := { c1 with life := life }
  let c3 := { c2 with eligible := eligibleNow v c2 }
  let c4 := { c3 with eKey := eKeyOf v c3, pKey := pKeyOf v c3 }
  (c4,
    (if baked then [.bakeDone] else []) ++ (if recovered then [.recovered] else []) ++
      (if life = c1.life then [] else lifeAlert life))

/-! Deadline lists -/

/-- File a key: after every entry whose key is at or below it (R39). -/
def insertKey (e : KeyEntry) : List KeyEntry → List KeyEntry
  | [] => [e]
  | h :: rest => if e.key < h.key then e :: h :: rest else h :: insertKey e rest

/-- Withdraw a carrier's entry (R39). -/
def withdrawSlot (slot : Nat) (l : List KeyEntry) : List KeyEntry := l.filter fun e => e.slot ≠ slot

/-- File a key that may be absent. -/
def insertKeyOpt (slot : Nat) (key : Option Nat) (l : List KeyEntry) : List KeyEntry :=
  match key with
  | none => l
  | some k => insertKey { slot := slot, key := k } l

/-- Withdraw a carrier's keys from its zone's lists (R17). -/
def Zone.withdraw (slot : Nat) (z : Zone) : Zone :=
  { z with eList := withdrawSlot slot z.eList, pList := withdrawSlot slot z.pList }

/-- File a carrier's keys into its zone's lists (R17). -/
def Zone.file (slot : Nat) (eKey pKey : Option Nat) (z : Zone) : Zone :=
  { z with eList := insertKeyOpt slot eKey z.eList, pList := insertKeyOpt slot pKey z.pList }

/-! Counts (R45, R46) -/

/-- Raise one status count. -/
def LifeCounts.add (k : LifeCounts) : Life → LifeCounts
  | .fresh => { k with fresh := k.fresh + 1 }
  | .warned => { k with warned := k.warned + 1 }
  | .expired => { k with expired := k.expired + 1 }
  | .spent => { k with spent := k.spent + 1 }

/-- Lower one status count. -/
def LifeCounts.sub (k : LifeCounts) : Life → LifeCounts
  | .fresh => { k with fresh := k.fresh - 1 }
  | .warned => { k with warned := k.warned - 1 }
  | .expired => { k with expired := k.expired - 1 }
  | .spent => { k with spent := k.spent - 1 }

/-- A resident's life status changes (R46). -/
def Zone.moveLife (a b : Life) (z : Zone) : Zone := if a = b then z else { z with counts := (z.counts.sub a).add b }

/-- A carrier becomes resident (R45, R46). -/
def Zone.addResident (life : Life) (z : Zone) : Zone :=
  { z with residents := z.residents + 1, counts := z.counts.add life }

/-- A carrier ceases to be resident (R45, R46). -/
def Zone.dropResident (life : Life) (z : Zone) : Zone :=
  { z with residents := z.residents - 1, counts := z.counts.sub life }

/-! Settle over State -/

/-- The integrals of a residence zone; 0 and 0 for a carrier with no zone (R9, R10). -/
def State.integrals (s : State) (zone : Option Nat) : Nat × Nat :=
  match zone with
  | none => (0, 0)
  | some n => ((s.zone n).e, (s.zone n).p)

/-- The record a settle of a carrier gives, with its alerts. -/
def State.settled (s : State) (c : Carrier) : Carrier × List AlertKind :=
  settleRecord (s.classValues c.cls) (s.integrals c.zone).1 (s.integrals c.zone).2 s.clock s.minuteCount c

/-- Raise a list of alerts for one subject, in order. -/
def State.raiseAll (s : State) (ks : List AlertKind) (subj : Subject) : State :=
  ks.foldl (fun s k => s.raise k subj none) s

/-- Settle a live carrier: its record, its zone's lists and counts, its alerts; and whether its life status or bake
count changed, on which its change stamp advances (R8, R17, R19). -/
def State.settle (s : State) (slot : Nat) : State × Bool :=
  match s.carrier slot with
  | none => (s, false)
  | some c =>
    let r := s.settled c
    let new := r.1
    let s1 := s.modZoneOpt c.zone fun z => ((z.withdraw slot).file slot new.eKey new.pKey).moveLife c.life new.life
    let s2 := s1.setCarrier slot new
    (s2.raiseAll r.2 (s.itemSubject (.carrier slot)),
      decide (c.life ≠ new.life) || decide (c.bakeCount ≠ new.bakeCount))

/-- A settle that is no part of a request or step that changes the carrier: the stamp advances with a change of life
status or bake count (R19). -/
def State.settleStamped (s : State) (slot : Nat) : State :=
  let r := s.settle slot
  r.1.bumpCarrierIf slot r.2

/-! Residence (R3, R4) -/

/-- The residence mode of a carrier in a zone, given whether it or anything around it is packed (R3). -/
def State.modeIn (s : State) (zone : Option Nat) (packed : Bool) : ResMode :=
  match zone with
  | none => .still
  | some n =>
    if packed then .still
    else
      match (s.zone n).cfg.kind with
      | .floor => .accrue
      | .dry => .rest
      | .oven => .bake

/-- The residence mode of a carrier under a parent, in a zone, with its own packed flag (R3). -/
def State.modeUnder (s : State) (parent : Option Parent) (zone : Option Nat) (packed : Bool) : ResMode :=
  s.modeIn zone (packed || (s.chainOfParent parent).any s.packedFlag)

/-- Fold the oldest closed segments beyond the limit into the carried credits (R22). -/
def foldSegments (carried : Int) (closed : List ClosedSeg) : Int × List ClosedSeg :=
  if Config.segmentLimit < closed.length then
    match closed with
    | [] => (carried, [])
    | oldest :: rest => (carried + oldest.credits, rest)
  else (carried, closed)

/-- Close the open segment and open a new one (R21, R22). -/
def closeSegment (clock : Option Word) (minute : Word) (zone : Option Nat) (mode : ResMode) (c : Carrier) : Carrier :=
  let seg : ClosedSeg :=
    { zone := c.openSeg.zone, mode := c.openSeg.mode, stamp := c.openSeg.stamp, minutes := minute - c.openSeg.entry,
      credits := c.openSeg.credits }
  let folded := foldSegments c.carried (c.closed ++ [seg])
  { c with
    carried := folded.1
    closed := folded.2
    openSeg := { zone := zone, mode := mode, stamp := clock, entry := minute, credits := 0 } }

/-- Where a carrier goes: its parent, its packed flag, and the residence R3 derives from them. -/
structure Residence where
  parent : Option Parent
  packed : Bool
  zone : Option Nat
  mode : ResMode
  deriving DecidableEq, Repr

/-- The record part of a residence change after its first settle (R4): parent, packing, residence, segment, anchors,
bake progress; the withdrawn keys are gone. -/
def moveRecord (r : Residence) (e p : Nat) (clock : Option Word) (minute : Word) (c : Carrier) : Carrier :=
  let c1 := if c.zone ≠ r.zone ∨ c.mode ≠ r.mode then closeSegment clock minute r.zone r.mode c else c
  { c1 with
    parent := r.parent
    packed := r.packed
    zone := r.zone
    mode := r.mode
    aE := e
    aP := p
    progress := if r.mode = .bake then c.progress else 0
    eKey := none
    pKey := none }

/-- R4 makes a residence change: the zone or mode differs from the stored one, or the parent changes. -/
def Carrier.moves (c : Carrier) (r : Residence) : Bool :=
  decide (c.zone ≠ r.zone) || decide (c.mode ≠ r.mode) || decide (c.parent ≠ r.parent)

/-- The move between the two settles of a residence change (R4, R45, R46). -/
def State.relocate (s : State) (slot : Nat) (r : Residence) (c : Carrier) : State :=
  let s1 := s.modZoneOpt c.zone (Zone.withdraw slot)
  let new := moveRecord r (s.integrals r.zone).1 (s.integrals r.zone).2 s.clock s.minuteCount c
  let s2 := s1.setCarrier slot new
  if c.zone = r.zone then s2
  else (s2.modZoneOpt c.zone (Zone.dropResident c.life)).modZoneOpt r.zone (Zone.addResident c.life)

/-- Give a carrier a new parent, packing and residence (R4); when R4 makes no residence change only the parent and
packed flag are stored. The flag says whether a settle changed life status or bake count. -/
def State.changeResidence (s : State) (slot : Nat) (r : Residence) : State × Bool :=
  match s.carrier slot with
  | none => (s, false)
  | some c =>
    if c.moves r then
      let first := s.settle slot
      match first.1.carrier slot with
      | none => first
      | some c1 =>
        let second := (first.1.relocate slot r c1).settle slot
        (second.1, first.2 || second.2)
    else (s.setCarrier slot { c with parent := r.parent, packed := r.packed }, false)

/-- The bakes left to a carrier are used up: its bake count is at or above its class budget (R76). -/
def State.bakesUsed (s : State) (c : Carrier) : Bool := decide ((s.classValues c.cls).bakeBudget ≤ c.bakeCount)

/-- Raise BAKE_REFUSED for a carrier now in BAKE mode with no bake left, or SPENT when `spentToo` (R76, R132). -/
def State.bakeRefusal (s : State) (slot : Nat) (spentToo : Bool) : State :=
  match s.carrier slot with
  | none => s
  | some c =>
    if c.mode = .bake ∧ (s.bakesUsed c || (spentToo && decide (c.life = .spent))) then
      s.raise .bakeRefused (s.itemSubject (.carrier slot)) none
    else s

/-- Move a carrier: the residence change (R4), BAKE_REFUSED when a new residence is BAKE (R76, log entry 14), one advance
of the stamp (R156). -/
def State.moveCarrier (s : State) (n : Nat) (c : Carrier) (r : Residence) : State :=
  let s1 := (s.changeResidence n r).1
  let s2 := if c.zone ≠ r.zone ∨ c.mode ≠ r.mode then s1.bakeRefusal n false else s1
  s2.bumpCarrier n

end Sys2Proof.Machine
end

