-- ==== Sys2Proof/Machine/Arbiter.lean ====
section
/-! DEFINITION. The Store Arbiter (7.7): who is granted the Account Store, and what a grant and its end do to the
arbiter's own state. -/

namespace Sys2Proof.Machine

/-- The request a link holds and that has not been answered. -/
def State.inHand (s : State) (l : Link) : Option Instr :=
  match (s.link l).hand with
  | some (.waiting c) => some c
  | _ => none

/-- A link's request in hand waits for the store (R142). -/
def State.portWaiting (s : State) (l : Link) : Bool :=
  match s.inHand l with
  | none => false
  | some c => s.waitsForStore c

/-- The choice between the two links (R145): of two that wait, the one not served last. -/
def choosePort (last : Link) (host floor : Bool) : Grant :=
  match host, floor with
  | true, true => .port (otherLink last)
  | true, false => .port .host
  | false, true => .port .floor
  | false, false => .none

/-- A choice, or the step when no port is chosen. -/
def Grant.orStep : Grant → Grant
  | .none => .step
  | g => g

/-- The choice between ports and the step of the running batch, by the arbiter mode (R143, R144). -/
def State.chooseWithStep (s : State) : Grant :=
  match s.settings.arbiterMode with
  | .portsFirst =>
    if Config.portGrantLimit ≤ s.portCount then .step
    else (choosePort s.lastServed (s.portWaiting .host) (s.portWaiting .floor)).orStep
  | .batchFirst => .step
  | .batchExclusive =>
    (choosePort s.lastServed (s.portWaiting .host && s.owed.contains .host)
      (s.portWaiting .floor && s.owed.contains .floor)).orStep

/-- Who is granted the store now (R142): nobody unless the part runs with no power-fail warning taken; a due drain
first; then ports and steps by the mode. -/
def State.arbitrate (s : State) : Grant :=
  if !s.receiving then .none
  else if s.dueZone.isSome then .drain
  else if s.stepWaiting then s.chooseWithStep
  else choosePort s.lastServed (s.portWaiting .host) (s.portWaiting .floor)

/-- An operation other than a drain may take the store now: the arbiter chooses it, or it may have held the store over
the last minute event and no grant has been made since, so that its settles come before the drains that event made due
(R36, R43; log entry 33). -/
def State.awards (s : State) (g : Grant) : Bool :=
  decide (s.arbitrate = g) || (s.receiving && decide (s.heldOver = g))

/-- The choice that can hold the store over a minute event: a drain is asked for anew after it (R43). -/
def Grant.overMinute : Grant → Grant
  | .drain => .none
  | g => g

/-- The arbiter's state at a drain grant: it counts for neither ports nor steps (R143). -/
def State.grantDrain (s : State) : State := { s with heldOver := .none }

/-- The arbiter's state at a port grant (R143, R145). -/
def State.grantPort (s : State) (l : Link) : State :=
  { s with
    heldOver := .none
    lastServed := l
    portCount := if s.stepWaiting ∧ s.settings.arbiterMode = .portsFirst then s.portCount + 1 else s.portCount
    owed := s.owed.filter (· ≠ l) }

/-- The arbiter's state at a step grant (R143). -/
def State.grantStep (s : State) : State := { s with heldOver := .none, portCount := 0, owed := [] }

/-- The store frees: the count returns to 0 when no step waits (R143). -/
def State.freeStore (s : State) : State := if s.stepWaiting then s else { s with portCount := 0 }

/-- The port requests waiting as an exclusive batch completes are granted before the next batch's first step (R144). -/
def State.oweWaiting (s : State) : State :=
  if s.settings.arbiterMode = .batchExclusive then { s with owed := [Link.host, Link.floor].filter s.portWaiting }
  else s

end Sys2Proof.Machine
end

