-- ==== Sys2Proof/Machine/Reply.lean ====
section
/-! DEFINITION. Status codes and the encoding of values in replies (11.5, R186). -/

namespace Sys2Proof.Machine

/-! Status codes (11.5) -/

def stDone : Byte := 0x00
def stQueued : Byte := 0x01
def stBadKind : Byte := 0x10
def stBadField : Byte := 0x11
def stNotPermitted : Byte := 0x12
def stNotFound : Byte := 0x13
def stDuplicate : Byte := 0x14
def stFull : Byte := 0x15
def stUndefinedClass : Byte := 0x16
def stUnmapped : Byte := 0x17
def stState : Byte := 0x18
def stNested : Byte := 0x19
def stLimit : Byte := 0x1A
def stOccupied : Byte := 0x1B
def stBusy : Byte := 0x20
def stClaimed : Byte := 0x21
def stStaleStamp : Byte := 0x22
def stQuiesced : Byte := 0x23
def stPending : Byte := 0x24
def stGated : Byte := 0x28
def stWatchBlocked : Byte := 0x29
def stMisplaced : Byte := 0x2A

/-! Values, big-endian (R186) -/

/-- One byte. -/
def u8 (n : Nat) : List Byte := [BitVec.ofNat 8 n]

/-- Two bytes. -/
def u16 (n : Nat) : List Byte := [BitVec.ofNat 8 (n / 2 ^ 8), BitVec.ofNat 8 n]

/-- Four bytes. -/
def u32 (n : Nat) : List Byte :=
  [BitVec.ofNat 8 (n / 2 ^ 24), BitVec.ofNat 8 (n / 2 ^ 16), BitVec.ofNat 8 (n / 2 ^ 8), BitVec.ofNat 8 n]

/-- Six bytes: integrals, anchors and keys. -/
def u48 (n : Nat) : List Byte :=
  [BitVec.ofNat 8 (n / 2 ^ 40), BitVec.ofNat 8 (n / 2 ^ 32)] ++ u32 n

/-- Five bytes in two's complement: segment credits. -/
def s40 (n : Int) : List Byte :=
  let m := (BitVec.ofInt 40 n).toNat
  [BitVec.ofNat 8 (m / 2 ^ 32)] ++ u32 m

/-- Two bytes in two's complement: temperatures. -/
def s16 (n : Int) : List Byte := u16 (BitVec.ofInt 16 n).toNat

/-- A yes-or-no value. -/
def yes (b : Bool) : List Byte := if b then [0x01] else [0x00]

/-- An optional value behind its presence byte. -/
def opt {α : Type} (enc : α → List Byte) : Option α → List Byte
  | none => [0x00]
  | some a => 0x01 :: enc a

/-- A zone, door line or indicator line: 0xFF when absent. -/
def orNone : Option Nat → List Byte
  | none => [0xFF]
  | some n => u8 n

/-- A label behind its length byte. -/
def encLabel (l : Label) : List Byte := u8 l.length ++ l

/-- A clock value. -/
def encClock (w : Word) : List Byte := u32 w.toNat

/-- A list of entries behind its one-byte count. -/
def encList (entries : List (List Byte)) : List Byte := u8 entries.length ++ entries.flatten

/-! Codes (R186) -/

def lifeCode : Life → Byte
  | .fresh => 0
  | .warned => 1
  | .expired => 2
  | .spent => 3

def modeCode : ResMode → Byte
  | .still => 0
  | .accrue => 1
  | .rest => 2
  | .bake => 3

def kindByte : ZoneKind → Byte
  | .floor => 0
  | .dry => 1
  | .oven => 2

def zoneModeCode : ZoneMode → Byte
  | .normal => 0
  | .degraded => 1

def sourceCode : RateSource → Byte
  | .grid => 0
  | .fixed => 1

def linkCode : Link → Byte
  | .host => 0
  | .floor => 1

def claimedCode : Option Claim → Byte
  | none => 0
  | some c =>
    match c.link with
    | .host => 1
    | .floor => 2

def batchKindCode : BatchKind → Byte
  | .move => 0
  | .pack => 1
  | .unpack => 2
  | .reparent => 3
  | .classRevision => 4
  | .evacuate => 5

def quiesceCode : Quiesce → Byte
  | .active => 0
  | .quiescing => 1
  | .quiesced => 2

def arbiterCode : ArbiterMode → Byte
  | .portsFirst => 0
  | .batchFirst => 1
  | .batchExclusive => 2

def orderCode : AlertOrder → Byte
  | .age => 0
  | .rank => 1

def startCode : StartKind → Byte
  | .cold => 0
  | .warm => 1
  | .reset => 2

def causeCode : Cause → Byte
  | .stale => 0
  | .door => 1

def captureKindCode : CaptureKind → Byte
  | .unmapped => 1
  | .ambientRange => 2
  | .unknownZone => 3
  | .frameCheck => 4
  | .backupLost => 5
  | .watchMatch => 6

def captureSourceCode : CaptureSource → Byte
  | .hostLink => 0
  | .floorLink => 1
  | .batch => 2
  | .ambient => 3
  | .power => 4

def alertKindCode : AlertKind → Byte
  | .expired => 1
  | .spent => 2
  | .capture => 3
  | .zoneDegraded => 4
  | .warned => 5
  | .bakeRefused => 6
  | .claimLapsed => 7
  | .outage => 8
  | .leftBehind => 9
  | .bakeDone => 10
  | .recovered => 11
  | .zoneRestored => 12
  | .batchDone => 13

/-- Capture state as STATUS and CAPREAD report it. -/
def State.captureCode (s : State) : Byte := if s.heldMatch then 2 else if s.heldFault then 1 else 0

/-- GATED reasons (R75): SPENT before EXPIRED before HELD. -/
def gatedReason (life : Life) : Byte :=
  match life with
  | .spent => 1
  | .expired => 0
  | _ => 2

/-! Composite values (R186) -/

/-- A parent: form byte, then the pair or the container with its label. -/
def State.encParent (s : State) : Option Parent → List Byte
  | none => [0x00]
  | some (.place z loc) => 0x01 :: (u8 z ++ u16 loc)
  | some (.container n) => 0x02 :: (u16 n ++ encLabel (s.labelOf (.container n)))

/-- A closed segment (R20). -/
def encClosed (g : ClosedSeg) : List Byte :=
  orNone g.zone ++ [modeCode g.mode] ++ opt encClock g.stamp ++ u32 g.minutes.toNat ++ s40 g.credits

/-- The open segment (R20). -/
def encOpen (g : OpenSeg) : List Byte :=
  orNone g.zone ++ [modeCode g.mode] ++ opt encClock g.stamp ++ u32 g.entry.toNat ++ s40 g.credits

/-- An alert subject: its sort code and what it names. -/
def encSubject : Subject → List Byte
  | .item (.carrier n) label => 0x01 :: (u16 n ++ encLabel label)
  | .item (.container n) label => 0x02 :: (u16 n ++ encLabel label)
  | .zone n => 0x03 :: u8 n
  | .batch n k => 0x04 :: (u8 n ++ [batchKindCode k])
  | .captureUnit => [0x05]
  | .powerController => [0x06]

/-- An alert value: four bytes, a code in the four-byte value. -/
def encValue : AlertValue → List Byte
  | .cause c => u32 (causeCode c).toNat
  | .captured k => u32 (captureKindCode k).toNat
  | .link l => u32 (linkCode l).toNat
  | .minutes n => u32 n
  | .leftBehind n => u32 n

/-- An entry of an ALERTS reply (R175). -/
def encAlert (a : Alert) : List Byte :=
  [alertKindCode a.kind] ++ u8 a.kind.rank ++ encSubject a.subject ++ yes a.retired ++ opt encClock a.stamp ++
    u8 a.count ++ opt encValue a.value

/-- The status, stamp and life status of a reply past step 8 (R186); 0xFF as life status of a container. -/
def State.pastStep8 (s : State) (st : Byte) (it : Item) : List Byte :=
  match it with
  | .carrier n =>
    match s.carrier n with
    | none => [st]
    | some c => [st] ++ u16 c.stamp ++ [lifeCode c.life]
  | .container n => [st] ++ u16 (s.stampOf (.container n)) ++ [0xFF]

/-- DONE to a movement request of a carrier: residence zone and mode follow (R68, R186), which R95 and R98 say of NEST
and UNNEST. That OPEN, PLACE and PACK are movement requests too, a move in place included, and HOLD, UNHOLD and RETIRE are
not, is the model's reading (log entry 38). -/
def State.doneMoved (s : State) (slot : Nat) : List Byte :=
  s.pastStep8 stDone (.carrier slot) ++
    (match s.carrier slot with
      | none => []
      | some c => orNone c.zone ++ [modeCode c.mode])

/-- The watch's state and settings (R161, R163). -/
def State.encWatch (s : State) : List Byte :=
  yes s.watch.armed ++ yes s.watchSuspended ++ u16 s.watch.base ++ u8 s.watch.k ++ u8 s.watch.mask.toNat ++
    yes s.watch.block

/-- The greatest `n` at or below a bound for which a reply body with `n` entries fits its frame (R184). -/
def fitCount (bodyLength : Nat → Nat) : Nat → Nat
  | 0 => 0
  | n + 1 => if bodyLength (n + 1) ≤ Config.bodyMax then n + 1 else fitCount bodyLength n

end Sys2Proof.Machine
end

