-- ==== Sys2Proof/Machine/Frames.lean ====
section
/-! DEFINITION. Frames, their check, the decoding of request bodies, the request in hand, and how a request is served
(11.2 to 11.6). -/

namespace Sys2Proof.Machine

/-! The check (R181) -/

/-- One bit of the check: shift left, and add the polynomial when the bit shifted out differs from the data bit. -/
def crcBit (r : Half) (d : Bool) : Half :=
  if r.getMsbD 0 = d then r <<< 1 else (r <<< 1) ^^^ 0x1021

/-- One byte of the check, most significant bit first. -/
def crcByte (r : Half) (b : Byte) : Half :=
  [0, 1, 2, 3, 4, 5, 6, 7].foldl (fun r i => crcBit r (b.getMsbD i)) r

/-- The check over bytes in the order sent. -/
def crc (bytes : List Byte) : Half := bytes.foldl crcByte 0xFFFF

/-- The check of a frame: over its length byte and its body (R181). -/
def frameCheck (body : List Byte) : Half := crc (BitVec.ofNat 8 body.length :: body)

/-- The bytes of a frame as sent (R180), a reply's too. -/
def frameOf (body : List Byte) : List Byte :=
  [0x5A, BitVec.ofNat 8 body.length] ++ body ++ u16 (frameCheck body).toNat

/-- A frame is good when its length is 2 to 240 and its check matches (R180). -/
def goodFrameOk (body : List Byte) (check : Half) : Bool :=
  decide (2 ≤ body.length) && decide (body.length ≤ Config.bodyMax) && decide (check = frameCheck body)

/-! Reading a request body (R183, R186) -/

/-- One byte. -/
def take8 : List Byte → Option (Byte × List Byte)
  | [] => none
  | b :: rest => some (b, rest)

/-- Two bytes, big-endian. -/
def take16 : List Byte → Option (Half × List Byte)
  | a :: b :: rest => some (a ++ b, rest)
  | _ => none

/-- Four bytes, big-endian. -/
def take32 : List Byte → Option (Word × List Byte)
  | a :: b :: c :: d :: rest => some (a ++ b ++ c ++ d, rest)
  | _ => none

/-- A label behind its length byte; its length and bytes are judged by the field check. -/
def takeLabel : List Byte → Option (Label × List Byte)
  | [] => none
  | n :: rest => if n.toNat ≤ rest.length then some (rest.take n.toNat, rest.drop n.toNat) else none

/-- A trailing field that may be left out. -/
def takeOpt {α : Type} (take : List Byte → Option (α × List Byte)) (bs : List Byte) : Option (Option α × List Byte) :=
  match bs with
  | [] => some (none, [])
  | _ => (take bs).map fun r => (some r.1, r.2)

/-- A fixed number of bytes. -/
def takeBytes (n : Nat) (bs : List Byte) : Option (List Byte × List Byte) :=
  if n ≤ bs.length then some (bs.take n, bs.drop n) else none

/-- A fixed number of two-byte values. -/
def takeHalves : Nat → List Byte → Option (List Half × List Byte)
  | 0, bs => some ([], bs)
  | n + 1, bs => do
    let (h, bs) ← take16 bs
    let (hs, bs) ← takeHalves n bs
    return (h :: hs, bs)

/-- A command from a parse that leaves no byte over (R183). -/
def whole (c : Instr) (rest : List Byte) : Option Instr := if rest.isEmpty then some c else none

/-- The class values of SETCLASS (R186). -/
def takeClassFields (bs : List Byte) : Option (ClassFields × List Byte) := do
  let (limit, bs) ← take32 bs
  let (warn, bs) ← take8 bs
  let (ceiling, bs) ← take32 bs
  let (req, bs) ← take32 bs
  let (budget, bs) ← take8 bs
  return ({ limit := limit, warn := warn, ceiling := ceiling, bakeRequirement := req, bakeBudget := budget }, bs)

/-- A label and an optional expected stamp: PACK, UNNEST, RETIRE, UNHOLD (R186). -/
def takeStamped (bs : List Byte) : Option (Label × Option Half × List Byte) := do
  let (label, bs) ← takeLabel bs
  let (stamp, bs) ← takeOpt take16 bs
  return (label, stamp, bs)

/-- ENROL (R186). -/
def parseEnrol (l : Link) (tag : Byte) (bs : List Byte) : Option Instr := do
  let (item, bs) ← take8 bs
  let (label, bs) ← takeLabel bs
  let (cls, bs) ← take8 bs
  let (minutes, bs) ← take32 bs
  let (packed, bs) ← take8 bs
  let (bakes, bs) ← take8 bs
  let (loc, bs) ← takeOpt take16 bs
  if item = 0x01 then whole (.enrolCarrier l tag label cls minutes packed bakes loc) bs
  else if item = 0x02 then whole (.enrolContainer l tag label packed loc) bs
  else none

/-- OPEN (R186). -/
def parseOpen (l : Link) (tag : Byte) (bs : List Byte) : Option Instr := do
  let (label, bs) ← takeLabel bs
  let (stamp, bs) ← takeOpt take16 bs
  let (loc, bs) ← takeOpt take16 bs
  whole (.openItem l tag label stamp loc) bs

/-- PLACE (R186). -/
def parsePlace (l : Link) (tag : Byte) (bs : List Byte) : Option Instr := do
  let (label, bs) ← takeLabel bs
  let (stamp, bs) ← take16 bs
  let (loc, bs) ← take16 bs
  whole (.place l tag label stamp loc) bs

/-- NEST (R186). -/
def parseNest (l : Link) (tag : Byte) (bs : List Byte) : Option Instr := do
  let (label, bs) ← takeLabel bs
  let (target, bs) ← takeLabel bs
  let (stamp, bs) ← takeOpt take16 bs
  whole (.nest l tag label target stamp) bs

/-- HOLD (R186). -/
def parseHold (l : Link) (tag : Byte) (bs : List Byte) : Option Instr := do
  let (label, bs) ← takeLabel bs
  let (reason, bs) ← take8 bs
  let (stamp, bs) ← takeOpt take16 bs
  whole (.hold l tag label reason stamp) bs

/-- A layout of a label and an optional expected stamp. -/
def parseStamped (mk : Label → Option Half → Instr) (bs : List Byte) : Option Instr := do
  let (label, stamp, bs) ← takeStamped bs
  whole (mk label stamp) bs

/-- LOOKUP (R186). -/
def parseLookup (l : Link) (tag : Byte) (bs : List Byte) : Option Instr := do
  let (label, bs) ← takeLabel bs
  let (start, bs) ← takeOpt take8 bs
  whole (.lookup l tag label start) bs

/-- A layout of one label: CLAIM, RELEASE (R186). -/
def parseLabel (mk : Label → Instr) (bs : List Byte) : Option Instr := do
  let (label, bs) ← takeLabel bs
  whole (mk label) bs

/-- A layout of one byte: ZONEINFO, CLASSINFO (R186). -/
def parseByte (mk : Byte → Instr) (bs : List Byte) : Option Instr := do
  let (b, bs) ← take8 bs
  whole (mk b) bs

/-- A layout of one byte that may be left out: ALERTS, BATCHINFO (R186). -/
def parseOptByte (mk : Option Byte → Instr) (bs : List Byte) : Option Instr := do
  let (b, bs) ← takeOpt take8 bs
  whole (mk b) bs

/-- A layout of one byte and two bytes: EVACUATE, RESIDENTS (R186). -/
def parseByteHalf (mk : Byte → Half → Instr) (bs : List Byte) : Option Instr := do
  let (b, bs) ← take8 bs
  let (h, bs) ← take16 bs
  whole (mk b h) bs

/-- QUIESCE (R186). -/
def parseQuiesce (l : Link) (tag : Byte) (bs : List Byte) : Option Instr := do
  let (mode, bs) ← take8 bs
  if mode = 0 then whole (.quiesceImmediate l tag) bs
  else if mode = 1 then whole (.quiesceConditional l tag) bs
  else none

/-- SETUNIT (R186). -/
def parseSetUnit (l : Link) (tag : Byte) (bs : List Byte) : Option Instr := do
  let (mode, bs) ← take8 bs
  let (order, bs) ← take8 bs
  let (hostLimit, bs) ← take8 bs
  let (floorLimit, bs) ← take8 bs
  let (staleRate, bs) ← take8 bs
  let (watchBlock, bs) ← take8 bs
  let (inversion, bs) ← take8 bs
  whole
    (.setUnit l tag
      { arbiterMode := mode, alertOrder := order, hostLimit := hostLimit, floorLimit := floorLimit,
        staleRate := staleRate, watchBlock := watchBlock, inversion := inversion })
    bs

/-- SETZONE (R186). -/
def parseSetZone (l : Link) (tag : Byte) (bs : List Byte) : Option Instr := do
  let (zone, bs) ← take8 bs
  let (active, bs) ← take8 bs
  let (kind, bs) ← take8 bs
  let (gated, bs) ← take8 bs
  let (base, bs) ← take16 bs
  let (k, bs) ← take8 bs
  let (source, bs) ← take8 bs
  let (fixedRate, bs) ← take8 bs
  let (staleLimit, bs) ← take8 bs
  let (doorLine, bs) ← take8 bs
  let (doorGrace, bs) ← take8 bs
  let (indicatorLine, bs) ← take8 bs
  let (outageRate, bs) ← take8 bs
  whole
    (.setZone l tag
      { zone := zone, active := active, kind := kind, gated := gated, base := base, k := k, source := source,
        fixedRate := fixedRate, staleLimit := staleLimit, doorLine := doorLine, doorGrace := doorGrace,
        indicatorLine := indicatorLine, outageRate := outageRate })
    bs

/-- SETCLASS (R186). -/
def parseSetClass (l : Link) (tag : Byte) (bs : List Byte) : Option Instr := do
  let (cls, bs) ← take8 bs
  let (action, bs) ← take8 bs
  if action = 2 then whole (.setClassUndefine l tag cls) bs
  else
    let (values, bs) ← takeClassFields bs
    if action = 0 then whole (.setClassDefine l tag cls values) bs
    else if action = 1 then whole (.setClassRevise l tag cls values) bs
    else none

/-- SETGRID (R186). -/
def parseSetGrid (l : Link) (tag : Byte) (bs : List Byte) : Option Instr := do
  let (temps, bs) ← takeHalves 7 bs
  let (hums, bs) ← takeHalves 7 bs
  let (exposure, bs) ← takeBytes 64 bs
  let (recovery, bs) ← takeBytes 8 bs
  let (bake, bs) ← takeBytes 8 bs
  whole
    (.setGrid l tag { tempEdges := temps, humEdges := hums, exposure := exposure, recovery := recovery, bake := bake })
    bs

/-- AMBIENT (R186). -/
def parseAmbient (l : Link) (tag : Byte) (bs : List Byte) : Option Instr := do
  let (zone, bs) ← take8 bs
  let (temp, bs) ← take16 bs
  let (hum, bs) ← take16 bs
  whole (.ambient l tag zone temp hum) bs

/-- WATCH (R186). -/
def parseWatch (l : Link) (tag : Byte) (bs : List Byte) : Option Instr := do
  let (action, bs) ← take8 bs
  if action = 0 then
    let (base, bs) ← take16 bs
    let (k, bs) ← take8 bs
    let (mask, bs) ← take8 bs
    let (block, bs) ← takeOpt take8 bs
    whole (.watchSet l tag base k mask block) bs
  else if action = 1 then whole (.watchArm l tag) bs
  else if action = 2 then whole (.watchDisarm l tag) bs
  else none

/-- SETCLOCK (R186). -/
def parseSetClock (l : Link) (tag : Byte) (bs : List Byte) : Option Instr := do
  let (clock, bs) ← take32 bs
  whole (.setClock l tag clock) bs

/-- The fields of a request of a catalogue kind (R186); `none` when their form or length is wrong. -/
def parseFields (l : Link) (kind tag : Byte) (bs : List Byte) : Option Instr :=
  if kind = 0x01 then whole (.status l tag) bs
  else if kind = 0x02 then parseSetClock l tag bs
  else if kind = 0x03 then parseSetUnit l tag bs
  else if kind = 0x04 then whole (.erase l tag) bs
  else if kind = 0x05 then parseQuiesce l tag bs
  else if kind = 0x06 then whole (.resume l tag) bs
  else if kind = 0x10 then parseEnrol l tag bs
  else if kind = 0x11 then parseOpen l tag bs
  else if kind = 0x12 then parsePlace l tag bs
  else if kind = 0x13 then parseStamped (.pack l tag) bs
  else if kind = 0x14 then parseNest l tag bs
  else if kind = 0x15 then parseStamped (.unnest l tag) bs
  else if kind = 0x16 then parseStamped (.retire l tag) bs
  else if kind = 0x17 then parseHold l tag bs
  else if kind = 0x18 then parseStamped (.unhold l tag) bs
  else if kind = 0x19 then parseByteHalf (.evacuate l tag) bs
  else if kind = 0x20 then parseLookup l tag bs
  else if kind = 0x21 then parseByte (.zoneInfo l tag) bs
  else if kind = 0x22 then parseByteHalf (.residents l tag) bs
  else if kind = 0x23 then parseOptByte (.batchInfo l tag) bs
  else if kind = 0x24 then parseByte (.classInfo l tag) bs
  else if kind = 0x30 then parseSetZone l tag bs
  else if kind = 0x31 then parseSetClass l tag bs
  else if kind = 0x32 then parseSetGrid l tag bs
  else if kind = 0x38 then parseAmbient l tag bs
  else if kind = 0x40 then parseLabel (.claim l tag) bs
  else if kind = 0x41 then parseLabel (.release l tag) bs
  else if kind = 0x48 then parseWatch l tag bs
  else if kind = 0x49 then whole (.capRead l tag) bs
  else if kind = 0x4A then whole (.capClear l tag) bs
  else if kind = 0x50 then parseOptByte (.alerts l tag) bs
  else none

/-! The request in hand -/

/-- A reply body: kind code plus 0x80, tag, then status and result fields (R184). -/
def replyTo (kind tag : Byte) (result : List Byte) : Hand := .replying ((kind + 0x80) :: tag :: result)

/-- The Frame Engine's checks of a request it has read: permission, then fields (R68 steps 1 and 2). -/
def judge (l : Link) (kind tag : Byte) (c : Instr) : Hand :=
  if !permitted l kind then replyTo kind tag [stNotPermitted]
  else if fieldsOk c then .waiting c
  else replyTo kind tag [stBadField]

/-- Decode a body taken into hand (R183): kind, permission, then the form and ranges of the fields. -/
def decodeBody (l : Link) : List Byte → Hand
  | kind :: tag :: fields =>
    if !catalogue.contains kind then .replying [0xFF, tag, stBadKind, kind]
    else if !permitted l kind then replyTo kind tag [stNotPermitted]
    else
      match parseFields l kind tag fields with
      | none => replyTo kind tag [stBadField]
      | some c => judge l kind tag c
  | _ => .replying []

/-- With no request in hand, the oldest buffered frame is taken into hand and decoded (R182). -/
def State.takeFrame (s : State) (l : Link) : State :=
  let ls := s.link l
  match ls.hand, ls.buffer with
  | none, body :: rest => s.setLink l { ls with hand := some (decodeBody l body), buffer := rest }
  | _, _ => s

/-- A good frame joins the receive buffer, or is discarded with the overrun flag set (R182). -/
def State.bufferFrame (s : State) (l : Link) (body : List Byte) : State :=
  let ls := s.link l
  if ls.buffer.length < Config.bufferLimit then (s.setLink l { ls with buffer := ls.buffer ++ [body] }).takeFrame l
  else s.setLink l { ls with overrun := true }

/-- A frame is discarded as bad: the flag, and a FRAME_CHECK fault with the link as source (R180). -/
def State.discardFrame (s : State) (l : Link) : State :=
  (s.setLink l { s.link l with badFrame := true }).raiseFault .frameCheck (linkSource l) none none none

/-! Serving a request -/

/-- A link is free to take a frame straight into hand: no request in hand, no frame buffered or in progress. -/
def LinkState.free (ls : LinkState) : Bool := ls.hand.isNone && ls.buffer.isEmpty && ls.frame.isNone

/-- A request command on an idle link: the frame that carries it is received and taken into hand (log entry 3). -/
def State.present (s : State) (l : Link) (c : Instr) : State :=
  match requestOf c with
  | none => s
  | some (_, tag) =>
    if s.receiving && (s.link l).free then s.setHand l (some (judge l (kindCode c) tag c)) else s

/-- What an owner gives: the state after its act and the reply from its status on. -/
abbrev Owner := State → State × List Byte

/-- The owner acts and the reply takes the request's place in hand (R184). -/
def State.act (s : State) (l : Link) (c : Instr) (owner : Owner) : State :=
  let r := owner s
  match requestOf c with
  | none => s
  | some (_, tag) => r.1.setHand l (some (replyTo (kindCode c) tag r.2))

/-- The owner acts under a store grant (R142). -/
def State.actInStore (s : State) (l : Link) (c : Instr) (owner : Owner) : State :=
  ((s.grantPort l).act l c owner).freeStore

/-- A request in hand is served: at once when it needs no store grant, under the grant when the arbiter gives it,
and not yet when the arbiter serves another (R142, R183). -/
def State.serveInHand (s : State) (l : Link) (c : Instr) (owner : Owner) : State :=
  if s.inHand l = some c then
    if s.waitsForStore c then (if s.awards (.port l) then s.actInStore l c owner else s)
    else s.act l c owner
  else s

/-- A request row: due events first, then the request is presented and served. A link whose hand holds another
request leaves the command without effect, and so does a part that does not run. -/
def serve (l : Link) (c : Instr) (owner : Owner) (s : State) : Result :=
  let s1 := s.takeDue
  if s1.running then .next ((s1.present l c).serveInHand l c owner) else .next s1

end Sys2Proof.Machine
end

