-- ==== Sys2Proof/Machine/Queue.lean ====
section
/-! DEFINITION. Accepting and completing batches (R124, R125, R135), and the immediate and final-step changes of
nesting (R96, R99). -/

namespace Sys2Proof.Machine

/-- Steps of a batch: its carrier steps and the final step; 4096 for CLASS_REVISION (R124). -/
def BatchJob.steps (j : BatchJob) (walk : List Nat) : Nat :=
  match j with
  | .revision _ => Config.carrierSlots
  | _ => walk.length + 1

/-- Mark or unmark a list of carriers and a list of containers. -/
def State.markAll (s : State) (b : Bool) (carriers containers : List Nat) : State :=
  containers.foldl (State.markContainer b) (carriers.foldl (State.markCarrier b) s)

/-- Accept a batch: its number, its record at the end of the queue, the marks of its scope (R125). -/
def State.acceptBatch (s : State) (job : BatchJob) (l : Link) (walk containers : List Nat) : State :=
  let b : Batch :=
    { number := s.nextBatch, job := job, link := l, total := job.steps walk, done := 0, leftBehind := 0, walk := walk,
      carriers := walk, containers := containers }
  let s1 : State := { s with batches := s.batches ++ [b], nextBatch := (s.nextBatch + 1) % 256 }
  s1.markAll true walk containers

/-- An item of a container's subtree, the container included, is in transit. -/
def State.subtreeInTransit (s : State) (n : Nat) : Bool :=
  (s.subCarriers n).any (fun c => s.inTransit (.carrier c)) ||
    (s.subContainers n).any fun m => s.inTransit (.container m)

/-- The carriers of a scope that would be left behind as their records stand (R126). -/
def State.forecast (s : State) (target : Nat) (carriers : List Nat) : Nat :=
  let cfg := (s.zone target).cfg
  (carriers.filter fun n =>
    match s.carrier n with
    | none => false
    | some c => (cfg.gated && gateBars c.life (decide (c.hold ≠ 0))) || ovenBars cfg.kind c.life).length

/-- A QUEUED reply to a container request: batch number after stamp and life status (R100, R186). -/
def queuedReply (s : State) (number n : Nat) : List Byte := s.pastStep8 stQueued (.container n) ++ u8 number

/-- The zone is the target of a queued or running MOVE or EVACUATE (R127). -/
def State.isBatchTarget (s : State) (z : Nat) : Bool :=
  s.batches.any fun b =>
    match b.job with
    | .move _ _ t _ => decide (t = z)
    | .evacuate _ t _ => decide (t = z)
    | _ => false

/-- A zone a batch holds against deactivation and change of kind (R28). -/
def State.heldByBatch (s : State) (z : Nat) : Bool :=
  s.batches.any fun b =>
    match b.job with
    | .move _ src t _ => decide (src = some z) || decide (t = z)
    | .evacuate src t _ => decide (src = z) || decide (t = z)
    | .nesting c _ => decide ((s.container c).bind (·.zone) = some z)
    | .unnesting c => decide ((s.container c).bind (·.zone) = some z)
    | _ => false

/-- An EVACUATE from the zone is in the queue (R47). -/
def State.evacuatesFrom (s : State) (z : Nat) : Bool :=
  s.batches.any fun b =>
    match b.job with
    | .evacuate src _ _ => decide (src = z)
    | _ => false

/-- Put a container into a target: parent, member list, depths, counts, stamp (R96). -/
def State.joinContainer (s : State) (x target : Nat) : State :=
  let k := s.subtreeCount x
  let d := ((s.container target).map (·.depth)).getD 0
  let s1 := (s.modContainer x fun c => { c with parent := some (.container target) }).addMember target (.container x)
  ((s1.setDepths x (d + 1)).addSubtree (s1.chain target) k).bumpContainer x

/-- Take a container out of its parent to the place of its chain (R99). -/
def State.leaveContainer (s : State) (x : Nat) : State :=
  match s.parentOf x with
  | none => s
  | some p =>
    let k := s.subtreeCount x
    let place := s.placeParent p
    let s1 := (s.dropMember p (.container x)).subSubtree (s.chain p) k
    ((s1.modContainer x fun c => { c with parent := place }).setDepths x 1).bumpContainer x

/-- The value of a BATCH_DONE (R135). -/
def Batch.doneValue (b : Batch) : Option AlertValue :=
  match b.job with
  | .move .. => some (.leftBehind b.leftBehind)
  | .evacuate .. => some (.leftBehind b.leftBehind)
  | _ => none

/-- What completion does beside the queue and the alert: revisions pending, the evacuating flag (R47, R135). -/
def State.completeJob (s : State) (j : BatchJob) : State :=
  match j with
  | .revision c => s.setCls c { s.cls c with revisions := (s.cls c).revisions - 1 }
  | .evacuate src _ _ => if s.evacuatesFrom src then s else s.modZone src fun z => { z with evacuating := false }
  | _ => s

/-- Completion of the running batch (R135): the record leaves the queue, BATCH_DONE is raised, QUIESCING becomes
QUIESCED, and under BATCH_EXCLUSIVE the waiting port requests are owed their grants (R144). -/
def State.completeBatch (s : State) (b : Batch) : State :=
  let s1 : State := { s with batches := s.batches.tail }
  let s2 := (s1.completeJob b.job).raise .batchDone (.batch b.number b.job.kind) b.doneValue
  let s3 : State := { s2 with quiesce := if s2.quiesce = Quiesce.quiescing then .quiesced else s2.quiesce }
  s3.oweWaiting

end Sys2Proof.Machine
end

