-- ==== Sys2Proof/Machine/Items.lean ====
section
/-! DEFINITION. The order of checks of an item request (4.2), the entry tests (4.4), and what carrier and container
requests share. -/

namespace Sys2Proof.Machine

/-- Steps 3 to 7 of the order of checks (R68): refused with a reply from its status on, or passed with the item. -/
inductive Checked where
  | refused (s : State) (reply : List Byte)
  | passed (s : State) (it : Item)
  deriving DecidableEq, Repr

/-- Steps 6 and 7: the expected stamp, and the Batch Unit ACTIVE (R68, R157). -/
def State.checkStamp (s : State) (it : Item) (stamp : Nat) : Checked :=
  if stamp ≠ 0 ∧ stamp ≠ s.stampOf it then .refused s (stStaleStamp :: u16 (s.stampOf it))
  else if s.quiesce ≠ .active then .refused s [stQuiesced]
  else .passed s it

/-- Step 5: the other link's claim refuses; the requesting link's own claim is reloaded as the check passes (R150,
R151). -/
def State.checkClaim (s : State) (l : Link) (it : Item) (next : State → Checked) : Checked :=
  match s.otherClaim l it with
  | some h => .refused s [stClaimed, linkCode h]
  | none => next (s.reloadClaim l it)

/-- Steps 3 to 7 for a request that names one item (R68). -/
def State.checkItem (s : State) (l : Link) (label : Label) (stamp : Nat) : Checked :=
  match s.find label with
  | none => .refused s [stNotFound]
  | some it =>
    if s.inTransit it then .refused s [stBusy]
    else s.checkClaim l it fun s1 => s1.checkStamp it stamp

/-- Step 8 for the kind of item found. -/
def runChecked (c : Checked) (onCarrier onContainer : Nat → Owner) : State × List Byte :=
  match c with
  | .refused s reply => (s, reply)
  | .passed s (.carrier n) => onCarrier n s
  | .passed s (.container n) => onContainer n s

/-- An item request (R68). -/
def itemRequest (l : Link) (label : Label) (stamp : Nat) (onCarrier onContainer : Nat → Owner) : Owner := fun s =>
  runChecked (s.checkItem l label stamp) onCarrier onContainer

/-- A refusal at step 8 of a settled carrier: the settle stands, with its advance of the stamp (R68, R70). -/
def State.refuseCarrier (s : State) (n : Nat) (changed : Bool) (st : Byte) (extra : List Byte) : State × List Byte :=
  let s1 := s.bumpCarrierIf n changed
  (s1, s1.pastStep8 st (.carrier n) ++ extra)

/-- A refusal at step 8 of a container. -/
def State.refuseContainer (s : State) (n : Nat) (st : Byte) (extra : List Byte) : State × List Byte :=
  (s, s.pastStep8 st (.container n) ++ extra)

/-- DONE to a request that named a container. -/
def State.doneContainer (s : State) (n : Nat) : State × List Byte := (s, s.pastStep8 stDone (.container n))

/-- Step 8 of a carrier request: the settle, then the request's own conditions on the settled record (R70). -/
def withSettled (n : Nat) (act : Carrier → Bool → Owner) : Owner := fun s =>
  let r := s.settle n
  match r.1.carrier n with
  | none => (r.1, [stNotFound])
  | some c => act c r.2 r.1

/-- An entry test's outcome. -/
inductive Entry where
  | refused (s : State) (st : Byte) (extra : List Byte)
  | admitted (s : State) (zone : Nat)
  deriving DecidableEq, Repr

/-- The watch, tested for arrivals only (R75 condition 4, R164). -/
def State.enterWatched (s : State) (l : Link) (label : Label) (loc z : Nat) (arrival : Bool) : Entry :=
  if arrival then
    let t := s.testArrival (linkSource l) label loc z
    if t.2 then .refused t.1 stWatchBlocked [] else .admitted t.1 z
  else .admitted s z

/-- The entry conditions of a carrier at a zone (R75). -/
def State.enterZone (s : State) (l : Link) (label : Label) (loc z : Nat) (life : Life) (held arrival : Bool) : Entry :=
  let zr := s.zone z
  if zr.evacuating then .refused s stBusy []
  else if zr.cfg.gated && gateBars life held then .refused s stGated [gatedReason life]
  else if ovenBars zr.cfg.kind life then .refused s stGated [gatedReason life]
  else s.enterWatched l label loc z arrival

/-- A carrier entry by request: the location maps, then the entry conditions (R74, R75). -/
def State.enterCarrier (s : State) (l : Link) (label : Label) (loc : Nat) (life : Life) (held arrival : Bool) :
    Entry :=
  match s.mapLoc loc with
  | none => .refused (s.unmappedFault l (some label) loc) stUnmapped []
  | some z => s.enterZone l label loc z life held arrival

/-- A container entry by ENROL: the location maps, the zone is not evacuating, the watch (R92). -/
def State.enterContainer (s : State) (l : Link) (label : Label) (loc : Nat) : Entry :=
  match s.mapLoc loc with
  | none => .refused (s.unmappedFault l (some label) loc) stUnmapped []
  | some z => if (s.zone z).evacuating then .refused s stBusy [] else s.enterWatched l label loc z true

/-- Move an accepted carrier and reply DONE with zone and mode (R68). -/
def State.movedReply (s : State) (n : Nat) (c : Carrier) (r : Residence) : State × List Byte :=
  let s1 := s.moveCarrier n c r
  (s1, s1.doneMoved n)

end Sys2Proof.Machine
end

