-- ==== Sys2Proof/Machine/Accounts.lean ====
section
/-! DEFINITION. ENROL (4.5, R92), RETIRE (R83, R93), HOLD and UNHOLD (4.8), EVACUATE (R127). -/

namespace Sys2Proof.Machine

/-! ENROL of a carrier -/

/-- The record of a new carrier before its first settle (R2). -/
def newCarrier (cls : Nat) (exposure : Nat) (packed : Bool) (bakeCount : Nat) (parent : Option Parent)
    (zone : Option Nat) (mode : ResMode) (e p : Nat) (clock : Option Word) (minute : Word) : Carrier where
  cls := cls
  packed := packed
  parent := parent
  zone := zone
  mode := mode
  life := .fresh
  base := exposure
  aE := e
  aP := p
  progress := 0
  bakeCount := bakeCount
  eligible := false
  eKey := none
  pKey := none
  hold := 0
  carried := exposure
  closed := []
  openSeg := { zone := zone, mode := mode, stamp := clock, entry := minute, credits := 0 }
  stamp := 1
  inTransit := false
  enrolStamp := clock

/-- The DONE reply of a carrier ENROL (R78). -/
def State.enrolReply (s : State) (slot : Nat) : List Byte :=
  match s.carrier slot with
  | none => [stDone]
  | some c => [stDone] ++ u16 slot ++ u16 c.stamp ++ [lifeCode c.life] ++ orNone c.zone ++ [modeCode c.mode]

/-- Form a carrier in a free slot: record, directory entry, counts, first settle, BAKE_REFUSED (R2, R78). -/
def State.formCarrier (s : State) (slot : Nat) (label : Label) (c : Carrier) : State :=
  let s1 := (s.setCarrier slot c).addLabel label (.carrier slot)
  let s2 := s1.setCls c.cls { s1.cls c.cls with inUse := (s1.cls c.cls).inUse + 1 }
  let s3 := s2.modZoneOpt c.zone (Zone.addResident c.life)
  (s3.settle slot).1.bakeRefusal slot false

/-- A carrier ENROL whose conditions have passed (R78). -/
def enrolAt (slot : Nat) (label : Label) (cls exposure : Nat) (packed : Bool) (bakeCount : Nat) (parent : Option Parent)
    (zone : Option Nat) : Owner := fun s =>
  let c :=
    newCarrier cls exposure packed bakeCount parent zone (s.modeIn zone packed) (s.integrals zone).1
      (s.integrals zone).2 s.clock s.minuteCount
  let s1 := s.formCarrier slot label c
  (s1, s1.enrolReply slot)

/-- The life status a first settle will give (R77). -/
def State.firstLife (s : State) (cls exposure bakeCount : Nat) : Life :=
  evaluate (s.classValues cls) bakeCount exposure .fresh

/-- A carrier ENROL with a slot: the location and the entry conditions (R77 conditions 5 and 6). -/
def enrolInSlot (l : Link) (label : Label) (cls exposure : Nat) (packed : Bool) (bakeCount : Nat) (loc : Option Nat)
    (slot : Nat) : Owner := fun s =>
  match loc with
  | none => enrolAt slot label cls exposure packed bakeCount none none s
  | some loc =>
    match s.enterCarrier l label loc (s.firstLife cls exposure bakeCount) false true with
    | .refused s1 st extra => (s1, st :: extra)
    | .admitted s1 z => enrolAt slot label cls exposure packed bakeCount (some (.place z loc)) (some z) s1

/-- The owners take a carrier ENROL (R77). -/
def ownEnrolCarrier (l : Link) (label : Label) (cls : Byte) (minutes : Word) (packed : Byte) (bakeCount : Byte)
    (loc : Option Half) : Owner := fun s =>
  if (s.find label).isSome then (s, [stDuplicate])
  else if s.quiesce ≠ .active then (s, [stQuiesced])
  else if (s.cls cls.toNat).values = none then (s, [stUndefinedClass])
  else
    match tabFree Config.carrierSlots s.carriers with
    | none => (s, [stFull])
    | some slot =>
      enrolInSlot l label cls.toNat (Config.creditsPerMinute * minutes.toNat) (flagOf packed) bakeCount.toNat
        (locOperand loc) slot s

/-- ENROL of a carrier (R77, R78). -/
def execEnrolCarrier (l : Link) (tag : Byte) (label : Label) (cls : Byte) (minutes : Word) (packed : Byte)
    (bakeCount : Byte) (loc : Option Half) (s : State) : Result :=
  serve l (.enrolCarrier l tag label cls minutes packed bakeCount loc)
    (ownEnrolCarrier l label cls minutes packed bakeCount loc) s

/-! ENROL of a container -/

/-- The record of a new container (R92). -/
def newContainer (packed : Bool) (parent : Option Parent) (zone : Option Nat) : Container where
  packed := packed
  parent := parent
  zone := zone
  members := []
  subtree := 0
  depth := 1
  inTransit := false
  stamp := 1

/-- A container ENROL whose conditions have passed (R92). -/
def enrolContainerAt (n : Nat) (label : Label) (packed : Bool) (parent : Option Parent) (zone : Option Nat) : Owner :=
  fun s =>
    let s1 := (s.setContainer n (newContainer packed parent zone)).addLabel label (.container n)
    let s2 := s1.modZoneOpt zone fun z => { z with containers := z.containers + 1 }
    (s2, [stDone] ++ u16 n ++ u16 1 ++ orNone zone)

/-- The owners take a container ENROL (R92). -/
def ownEnrolContainer (l : Link) (label : Label) (packed : Byte) (loc : Option Half) : Owner := fun s =>
  if (s.find label).isSome then (s, [stDuplicate])
  else if s.quiesce ≠ .active then (s, [stQuiesced])
  else
    match tabFree Config.containerNumbers s.containers with
    | none => (s, [stFull])
    | some n =>
      match locOperand loc with
      | none => enrolContainerAt n label (flagOf packed) none none s
      | some loc =>
        match s.enterContainer l label loc with
        | .refused s1 st extra => (s1, st :: extra)
        | .admitted s1 z => enrolContainerAt n label (flagOf packed) (some (.place z loc)) (some z) s1

/-- ENROL of a container (R92). -/
def execEnrolContainer (l : Link) (tag : Byte) (label : Label) (packed : Byte) (loc : Option Half) (s : State) :
    Result :=
  serve l (.enrolContainer l tag label packed loc) (ownEnrolContainer l label packed loc) s

/-! RETIRE -/

/-- Take a carrier out of the container it is in (R83). -/
def State.leaveMembers (s : State) (n : Nat) (parent : Option Parent) : State :=
  match Parent.container? parent with
  | none => s
  | some p => (s.dropMember p (.carrier n)).subSubtree (s.chain p) 1

/-- What freeing an item does beside its own record: claim, alert entries, directory entry (R83, R93, R173). -/
def State.forgetItem (s : State) (it : Item) : State := ((s.freeClaim it).retireSubject it).dropLabel it

/-- Free a carrier (R83). -/
def State.freeCarrier (s : State) (n : Nat) (c : Carrier) : State :=
  let s1 := s.modZoneOpt c.zone fun z => (z.withdraw n).dropResident c.life
  let s2 := s1.leaveMembers n c.parent
  let s3 := s2.setCls c.cls { s2.cls c.cls with inUse := (s2.cls c.cls).inUse - 1 }
  let s4 := s3.forgetItem (.carrier n)
  { s4 with carriers := tabDel s4.carriers n }

/-- RETIRE of a carrier after its settle (R83). -/
def retireCarrier (n : Nat) : Owner :=
  withSettled n fun c changed s =>
    let s1 := s.bumpCarrierIf n changed
    (s1.freeCarrier n c, s1.pastStep8 stDone (.carrier n) ++ u32 c.base ++ u8 c.bakeCount)

/-- Free an empty container (R93). -/
def State.freeContainer (s : State) (n : Nat) (c : Container) : State :=
  let s1 :=
    match Parent.container? c.parent with
    | none => s
    | some p => s.dropMember p (.container n)
  let s2 := s1.modZoneOpt c.zone fun z => { z with containers := z.containers - 1 }
  let s3 := s2.forgetItem (.container n)
  { s3 with containers := tabDel s3.containers n }

/-- RETIRE of a container (R93). -/
def retireContainer (n : Nat) : Owner := fun s =>
  match s.container n with
  | none => (s, [stNotFound])
  | some c =>
    if c.members ≠ [] then s.refuseContainer n stOccupied []
    else (s.freeContainer n c, s.pastStep8 stDone (.container n))

/-- The owners take RETIRE (R83, R93). -/
def ownRetire (l : Link) (label : Label) (stamp : Option Half) : Owner :=
  itemRequest l label (stampOperand stamp) retireCarrier retireContainer

/-- RETIRE (R83, R93). -/
def execRetire (l : Link) (tag : Byte) (label : Label) (stamp : Option Half) (s : State) : Result :=
  serve l (.retire l tag label stamp) (ownRetire l label stamp) s

/-! HOLD and UNHOLD -/

/-- Set a hold reason and advance the stamp once (R84, R85). -/
def State.setHold (s : State) (n reason : Nat) : State :=
  (s.modCarrier n fun c => { c with hold := reason }).bumpCarrier n

/-- HOLD of a carrier after its settle (R84). -/
def holdCarrier (reason n : Nat) : Owner :=
  withSettled n fun c changed s =>
    let s1 := if c.hold = reason then s.bumpCarrierIf n changed else s.setHold n reason
    (s1, s1.pastStep8 stDone (.carrier n))

/-- HOLD and UNHOLD of a container are refused with STATE (R84, R85). -/
def holdContainer (n : Nat) : Owner := fun s => s.refuseContainer n stState []

/-- The Exposure Engine takes HOLD (R84). -/
def ownHold (l : Link) (label : Label) (reason : Byte) (stamp : Option Half) : Owner :=
  itemRequest l label (stampOperand stamp) (holdCarrier reason.toNat) holdContainer

/-- HOLD (R84). -/
def execHold (l : Link) (tag : Byte) (label : Label) (reason : Byte) (stamp : Option Half) (s : State) : Result :=
  serve l (.hold l tag label reason stamp) (ownHold l label reason stamp) s

/-- UNHOLD of a carrier after its settle (R85). -/
def unholdCarrier (n : Nat) : Owner :=
  withSettled n fun c changed s =>
    if c.hold = 0 then s.refuseCarrier n changed stState []
    else
      let s1 := s.setHold n 0
      (s1, s1.pastStep8 stDone (.carrier n))

/-- The Exposure Engine takes UNHOLD (R85). -/
def ownUnhold (l : Link) (label : Label) (stamp : Option Half) : Owner :=
  itemRequest l label (stampOperand stamp) unholdCarrier holdContainer

/-- UNHOLD (R85). -/
def execUnhold (l : Link) (tag : Byte) (label : Label) (stamp : Option Half) (s : State) : Result :=
  serve l (.unhold l tag label stamp) (ownUnhold l label stamp) s

/-! EVACUATE -/

/-- A parent is a place in a zone. -/
def Parent.inZone (p : Option Parent) (z : Nat) : Bool :=
  match p with
  | some (.place a _) => decide (a = z)
  | _ => false

/-- The direct resident carriers of a zone, in ascending slot order (R127). -/
def State.directCarriers (s : State) (z : Nat) : List Nat :=
  (s.carriers.filter fun e => Parent.inZone e.2.parent z).map (·.1)

/-- The direct resident containers of a zone, in ascending number (R127). -/
def State.directContainers (s : State) (z : Nat) : List Nat :=
  (s.containers.filter fun e => Parent.inZone e.2.parent z).map (·.1)

/-- The carrier steps of an EVACUATE (R128). -/
def State.evacuationWalk (s : State) (z : Nat) : List Nat :=
  s.directCarriers z ++ (s.directContainers z).flatMap s.subCarriers

/-- The containers of an EVACUATE's scope (R127). -/
def State.evacuationContainers (s : State) (z : Nat) : List Nat := (s.directContainers z).flatMap s.subContainers

/-- Accept an EVACUATE and set the zone's evacuating flag (R47, R125, R127). -/
def queueEvacuate (l : Link) (z target loc : Nat) : Owner := fun s =>
  let s1 := s.acceptBatch (.evacuate z target loc) l (s.evacuationWalk z) (s.evacuationContainers z)
  let s2 := s1.modZone z fun zr => { zr with evacuating := true }
  (s2,
    [stQueued] ++ u8 s.nextBatch ++ u8 target ++ yes (s.zone target).cfg.gated ++
      u16 (s.forecast target (s.evacuationWalk z)))

/-- Conditions 4 to 9 of EVACUATE (R127). -/
def evacuateTo (l : Link) (z target loc : Nat) : Owner := fun s =>
  if target = z then (s, [stState])
  else if (s.zone target).evacuating then (s, [stBusy])
  else if s.isBatchTarget z then (s, [stBusy])
  else if s.directCarriers z = [] ∧ s.directContainers z = [] then (s, [stDone])
  else if !s.batchRoom then (s, [stFull])
  else if (s.evacuationWalk z).any (fun n => s.inTransit (.carrier n)) ||
      (s.evacuationContainers z).any (fun n => s.inTransit (.container n)) then (s, [stBusy])
  else queueEvacuate l z target loc s

/-- The Batch Unit takes EVACUATE (R127). -/
def ownEvacuate (l : Link) (zone : Byte) (loc : Half) : Owner := fun s =>
  if s.quiesce ≠ .active then (s, [stQuiesced])
  else if !(s.zone zone.toNat).cfg.active then (s, [stState])
  else
    match s.mapLoc loc.toNat with
    | none => (s.unmappedFault l none loc.toNat, [stUnmapped])
    | some target => evacuateTo l zone.toNat target loc.toNat s

/-- EVACUATE (R127). -/
def execEvacuate (l : Link) (tag : Byte) (zone : Byte) (loc : Half) (s : State) : Result :=
  serve l (.evacuate l tag zone loc) (ownEvacuate l zone loc) s

end Sys2Proof.Machine
end

