-- ==== Sys2Proof/Machine/Claims.lean ====
section
/-! DEFINITION. CLAIM and RELEASE (8.2). -/

namespace Sys2Proof.Machine

/-- Check 6 of CLAIM and check 5 of RELEASE: the Host Link needs the Batch Unit ACTIVE (R149, R152). -/
def State.claimQuiesced (s : State) (l : Link) : Bool := decide (l = .host) && decide (s.quiesce ≠ .active)

/-- Settle a carrier item; a container has nothing to settle (R149 step 7, R152 step 6). -/
def State.settleItem (s : State) : Item → State
  | .carrier n => s.settleStamped n
  | .container _ => s

/-- Make a claim (R149 step 10). -/
def State.makeClaim (s : State) (l : Link) (it : Item) : State :=
  { s with claims := s.claims ++ [{ item := it, link := l, seconds := s.claimLimit l }] }

/-- The DONE reply of CLAIM: stamp, life status, remaining seconds (R149). A container's life-status byte, here and in the
replies of RELEASE, is the 0xFF of R186's layout past step 8, which is the model's choice (log entry 34). -/
def State.claimDone (s : State) (l : Link) (it : Item) : List Byte := s.pastStep8 stDone it ++ u8 (s.claimLimit l)

/-- Steps 8 to 10 of CLAIM, the item settled (R149). -/
def claimSettled (l : Link) (it : Item) : Owner := fun s =>
  if (s.claimOf it).isSome then
    let s1 := s.reloadClaim l it
    (s1, s1.claimDone l it)
  else if s.claims.length < Config.claimTableSize then
    let s1 := s.makeClaim l it
    (s1, s1.claimDone l it)
  else (s, s.pastStep8 stFull it)

/-- The Claim Table takes CLAIM (R149). -/
def ownClaim (l : Link) (label : Label) : Owner := fun s =>
  match s.find label with
  | none => (s, [stNotFound])
  | some it =>
    if s.inTransit it then (s, [stBusy])
    else
      match s.otherClaim l it with
      | some h => (s, [stClaimed, linkCode h])
      | none => if s.claimQuiesced l then (s, [stQuiesced]) else claimSettled l it (s.settleItem it)

/-- CLAIM (R149). -/
def execClaim (l : Link) (tag : Byte) (label : Label) (s : State) : Result :=
  serve l (.claim l tag label) (ownClaim l label) s

/-- Steps 7 and 8 of RELEASE, the item settled (R152). -/
def releaseSettled (it : Item) : Owner := fun s =>
  if (s.claimOf it).isSome then
    let s1 := s.freeClaim it
    (s1, s1.pastStep8 stDone it)
  else (s, s.pastStep8 stState it)

/-- The Claim Table takes RELEASE (R152). -/
def ownRelease (l : Link) (label : Label) : Owner := fun s =>
  match s.find label with
  | none => (s, [stNotFound])
  | some it =>
    match s.otherClaim l it with
    | some h => (s, [stClaimed, linkCode h])
    | none => if s.claimQuiesced l then (s, [stQuiesced]) else releaseSettled it (s.settleItem it)

/-- RELEASE (R152). -/
def execRelease (l : Link) (tag : Byte) (label : Label) (s : State) : Result :=
  serve l (.release l tag label) (ownRelease l label) s

end Sys2Proof.Machine
end

