-- ==== Sys2Proof/Machine/Containment.lean ====
section
/-! DEFINITION. NEST and UNNEST (5.4, 5.5). -/

namespace Sys2Proof.Machine

/-- An item's zone. -/
def State.itemZone (s : State) : Item → Option Nat
  | .carrier n => (s.carrier n).bind (·.zone)
  | .container n => (s.container n).bind (·.zone)

/-- An item's parent. -/
def State.itemParent (s : State) : Item → Option Parent
  | .carrier n => (s.carrier n).bind (·.parent)
  | .container n => (s.container n).bind (·.parent)

/-! NEST -/

/-- Step 4 and 5 for the target, after the item's (R94). -/
def State.checkNestTarget (s : State) (l : Link) (it target : Item) (stamp : Nat) : Checked :=
  s.checkClaim l it fun s1 => s1.checkClaim l target fun s2 => s2.checkStamp it stamp

/-- Steps 3 to 7 of NEST (R94): each step for the item, then for the target. -/
def State.checkNest (s : State) (l : Link) (label target : Label) (stamp : Nat) : Checked :=
  match s.find label, s.find target with
  | none, _ => .refused s [stNotFound]
  | _, none => .refused s [stNotFound]
  | some it, some t =>
    if s.inTransit it || s.inTransit t then .refused s [stBusy]
    else s.checkNestTarget l it t stamp

/-- Condition 4 (R94): a container item is not nested into itself or its own subtree. -/
def State.nestsIntoItself (s : State) (it : Item) (t : Nat) : Bool :=
  match it with
  | .carrier _ => false
  | .container n => (s.subContainers n).contains t

/-- Condition 5 (R94): a container above the target, or an item of a container item's subtree, is in transit. -/
def State.nestTransit (s : State) (it : Item) (t : Nat) : Bool :=
  ((s.chain t).drop 1).any (fun m => s.inTransit (.container m)) ||
    (match it with
      | .carrier _ => false
      | .container n => s.subtreeInTransit n)

/-- Conditions 6 to 8 (R94): the member, subtree and depth limits hold after the nest. -/
def State.nestFits (s : State) (it : Item) (t : Nat) : Bool :=
  decide ((s.members t).length < Config.memberLimit) &&
    ((s.chain t).all fun m => decide (s.subtreeCount m + s.itemCarriers it ≤ Config.subtreeLimit)) &&
    (match it with
      | .carrier _ => true
      | .container n => decide (((s.container t).map (·.depth)).getD 0 + s.height n ≤ Config.depthLimit))

/-- Condition 3 (R94): item and target stand in one zone. -/
def State.sameZone (s : State) (it : Item) (t : Nat) : Bool :=
  match s.itemZone it, s.itemZone (.container t) with
  | some a, some b => decide (a = b)
  | _, _ => false

/-- The first condition of R94 that fails, as its status. -/
def State.nestRefusal (s : State) (it target : Item) : Option Byte :=
  match target with
  | .carrier _ => some stState
  | .container t =>
    if (Parent.container? (s.itemParent it)).isSome then some stNested
    else if !s.sameZone it t then some stMisplaced
    else if s.nestsIntoItself it t then some stState
    else if s.nestTransit it t then some stBusy
    else if !s.nestFits it t then some stLimit
    else none

/-- A NEST of a carrier that has passed R94 (R95). -/
def nestCarrierInto (t n : Nat) (c : Carrier) : Owner := fun s =>
  let parent := some (Parent.container t)
  let s1 :=
    s.moveCarrier n c { parent := parent, packed := c.packed, zone := c.zone, mode := s.modeUnder parent c.zone c.packed }
  let s2 := (s1.addMember t (.carrier n)).addSubtree (s1.chain t) 1
  (s2, s2.doneMoved n)

/-- The container a target names; the conditions have shown it is one. -/
def itemNumber : Item → Nat
  | .carrier n => n
  | .container n => n

/-- NEST of a carrier after its settle (R94, R95). -/
def nestCarrier (target : Item) (n : Nat) : Owner :=
  withSettled n fun c changed s =>
    match s.nestRefusal (.carrier n) target with
    | some st => s.refuseCarrier n changed st []
    | none => nestCarrierInto (itemNumber target) n c s

/-- The NEST or UNNEST of a container changes its effective packing: it is not packed and something above it, now or
then, is (R96, R99); a batch is needed when carriers stand below it. -/
def State.needsReparent (s : State) (x above : Nat) : Bool :=
  !s.packedFlag x && s.effectivelyPacked above && decide (0 < s.subtreeCount x)

/-- A REPARENT batch of a container (R96, R99, R102). -/
def queueReparent (l : Link) (job : BatchJob) (x above : Nat) : Owner := fun s =>
  if !s.batchRoom then s.refuseContainer x stFull []
  else
    let s1 := s.acceptBatch job l (s.subCarriers x) (s.subContainers x ++ s.chain above)
    (s1, queuedReply s1 s.nextBatch x)

/-- NEST of a container (R94, R96). -/
def nestContainer (l : Link) (target : Item) (x : Nat) : Owner := fun s =>
  match s.nestRefusal (.container x) target with
  | some st => s.refuseContainer x st []
  | none =>
    let t := itemNumber target
    if s.needsReparent x t then queueReparent l (.nesting x t) x t s
    else (s.joinContainer x t).doneContainer x

/-- The owners take NEST (R94). -/
def ownNest (l : Link) (label target : Label) (stamp : Option Half) : Owner := fun s =>
  let t := (s.find target).getD (.carrier 0)
  runChecked (s.checkNest l label target (stampOperand stamp)) (nestCarrier t) (nestContainer l t)

/-- NEST (R94 to R96). -/
def execNest (l : Link) (tag : Byte) (label target : Label) (stamp : Option Half) (s : State) : Result :=
  serve l (.nest l tag label target stamp) (ownNest l label target stamp) s

/-! UNNEST -/

/-- Condition 3 (R97): the parent, a container above it, or an item of a container item's subtree is in transit. -/
def State.unnestTransit (s : State) (it : Item) (p : Nat) : Bool :=
  (s.chain p).any (fun m => s.inTransit (.container m)) ||
    (match it with
      | .carrier _ => false
      | .container n => s.subtreeInTransit n)

/-- Conditions 1 to 3 (R97): the parent container with the state after its claim check, or a refusal with its fields. -/
def State.unnestParent (s : State) (l : Link) (it : Item) : State × Except (Byte × List Byte) Nat :=
  match Parent.container? (s.itemParent it) with
  | none => (s, .error (stState, []))
  | some p =>
    match s.otherClaim l (.container p) with
    | some h => (s, .error (stClaimed, [linkCode h]))
    | none =>
      let s1 := s.reloadClaim l (.container p)
      if s1.unnestTransit it p then (s1, .error (stBusy, [])) else (s1, .ok p)

/-- An UNNEST of a carrier that has passed R97 (R98). -/
def unnestCarrierFrom (p n : Nat) (c : Carrier) : Owner := fun s =>
  let r : Residence := { parent := s.placeParent p, packed := c.packed, zone := c.zone, mode := s.modeIn c.zone c.packed }
  let s1 := (s.dropMember p (.carrier n)).subSubtree (s.chain p) 1
  s1.movedReply n c r

/-- UNNEST of a carrier after its settle (R97). -/
def unnestCarrier (l : Link) (n : Nat) : Owner :=
  withSettled n fun c changed s =>
    match s.unnestParent l (.carrier n) with
    | (s1, .error (st, extra)) => s1.refuseCarrier n changed st extra
    | (s1, .ok p) =>
      if c.life = .spent ∧ s1.modeIn c.zone c.packed = .bake ∧ c.mode ≠ .bake then
        s1.refuseCarrier n changed stGated [gatedReason c.life]
      else unnestCarrierFrom p n c s1

/-- UNNEST of a container (R97, R99). -/
def unnestContainer (l : Link) (x : Nat) : Owner := fun s =>
  match s.unnestParent l (.container x) with
  | (s1, .error (st, extra)) => s1.refuseContainer x st extra
  | (s1, .ok p) =>
    if s1.needsReparent x p then queueReparent l (.unnesting x) x p s1
    else (s1.leaveContainer x).doneContainer x

/-- The owners take UNNEST (R97). -/
def ownUnnest (l : Link) (label : Label) (stamp : Option Half) : Owner :=
  itemRequest l label (stampOperand stamp) (unnestCarrier l) (unnestContainer l)

/-- UNNEST (R97 to R99). -/
def execUnnest (l : Link) (tag : Byte) (label : Label) (stamp : Option Half) (s : State) : Result :=
  serve l (.unnest l tag label stamp) (ownUnnest l label stamp) s

end Sys2Proof.Machine
end

