-- ==== Sys2Proof/Machine/Doors.lean ====
section
/-! DEFINITION. Openings and closings of the door lines (6.3). -/

namespace Sys2Proof.Machine

/-- The level of a line changes. -/
def State.flipLevel (s : State) (line : Nat) : State := { s with doorLevel := s.doorLevel ^^^ (1#8 <<< line) }

/-- Take a change of a line's state to open or closed, when it is one, and deliver it (R112). -/
def State.takeDoor (s : State) (line : Nat) (opened : Bool) : State :=
  if s.running ∧ s.lineOpen line ≠ opened then (s.flipLevel line).deliverDoor line opened else s

/-- DOOR_OPENING (R112, R114). -/
def execDoorOpening (line : Fin 8) (s : State) : Result := .next (s.takeDue.takeDoor line.val true)

/-- DOOR_CLOSING (R112, R116). -/
def execDoorClosing (line : Fin 8) (s : State) : Result := .next (s.takeDue.takeDoor line.val false)

end Sys2Proof.Machine
end

