-- ==== Sys2Proof/Machine/Links.lean ====
section
/-! DEFINITION. Characters and line levels, the frames found in received bytes, and frames received, discarded and
answered (R179, R180, R182). -/

namespace Sys2Proof.Machine

/-! Characters and line levels (R179) -/

/-- The speed a link's straps choose, in baud: bit 1 is SPD1 and bit 0 is SPD0 (R179, 00_scope.md 2.5). -/
def baud (straps : BitVec 2) : Nat :=
  match straps.getLsbD 1, straps.getLsbD 0 with
  | false, false => 19200
  | false, true => 57600
  | true, false => 115200
  | true, true => 460800

/-- The speed a link runs at. -/
def LinkState.baud (ls : LinkState) : Nat := Sys2Proof.Machine.baud ls.speed

/-- The levels of one character, a bit time each: a start bit, 8 data bits with the least significant first, a stop bit
(R179). -/
def characterBits (b : Byte) : List Bool := false :: (List.range 8).map b.getLsbD ++ [true]

/-- The bytes of a frame after its lead byte: length, body and check, high byte first (R180). -/
def frameRest (body : List Byte) (check : Half) : List Byte :=
  BitVec.ofNat 8 body.length :: body ++ [check.extractLsb' 8 8, check.extractLsb' 0 8]

/-- The lead byte of a frame (R180). -/
def leadByte : Byte := 0x5A

/-- The frame under transmission on a link, absent while its transmitter sends nothing: in RETAIN, while RESETn is
asserted, and with no reply in hand (R179, R184). -/
def State.sending (s : State) (l : Link) : Option (List Byte) :=
  match (s.link l).hand with
  | some (.replying body) =>
    if s.running then some (leadByte :: frameRest body (crc (BitVec.ofNat 8 body.length :: body))) else none
  | _ => none

/-- The level of a link's output, `k` bit times from the beginning of the frame under transmission; the idle high level
while nothing is sent (R179). -/
def State.txLevel (s : State) (l : Link) (k : Nat) : Bool :=
  match s.sending l with
  | none => true
  | some bytes => (bytes.flatMap characterBits).getD k true

/-! Finding frames in the received bytes (R180) -/

/-- What the bytes received since a lead byte come to. -/
inductive Reception where
  | unfinished
  | bad
  | good (body : List Byte)
  deriving DecidableEq, Repr

/-- Judge a frame whose length byte and following bytes have been received: bad at once for an impossible length, judged
by its check when the second check byte is in (R180). -/
def judgeFrame : List Byte → Reception
  | [] => .unfinished
  | n :: rest =>
    if n.toNat < 2 ∨ Config.bodyMax < n.toNat then .bad
    else if rest.length < n.toNat + 2 then .unfinished
    else
      let body := rest.take n.toNat
      let check : Half := (rest.getD n.toNat 0) ++ (rest.getD (n.toNat + 1) 0)
      if goodFrameOk body check then .good body else .bad

/-- The Frame Engine hunts for a lead byte from here on. -/
def State.hunt (s : State) (l : Link) : State := s.setLink l { s.link l with frame := none }

/-- A frame goes on with the bytes received so far. -/
def State.keepFrame (s : State) (l : Link) (bytes : List Byte) : State :=
  s.setLink l { s.link l with frame := some bytes }

/-- Take one received byte: hunting, every byte but a lead byte is discarded; in a frame it is data (R180). -/
def State.takeByte (s : State) (l : Link) (b : Byte) : State :=
  match (s.link l).frame with
  | none => if b = leadByte then s.keepFrame l [] else s
  | some got =>
    match judgeFrame (got ++ [b]) with
    | .unfinished => s.keepFrame l (got ++ [b])
    | .bad => (s.hunt l).discardFrame l
    | .good body => (s.hunt l).bufferFrame l body

/-- Take one character: its data bits, whatever its stop bit; no character while the part does not receive (R179). -/
def State.takeCharacter (s : State) (l : Link) (c : Character) : State :=
  if s.receiving then s.takeByte l c.data else s

/-- The frame in progress on a link, if there is one, has begun with these bytes: it can go on to be the frame they are
the beginning of. -/
def State.continues (s : State) (l : Link) (bytes : List Byte) : Bool :=
  match (s.link l).frame with
  | none => true
  | some got => got.isPrefixOf bytes

/-! The frame rows: each stands for all the bytes of one frame, of which some may have been received already -/

/-- GOOD_FRAME (R180, R182): the frame joins its link's receive buffer, and is taken into hand when the link is free. A
frame whose length or check is wrong is a bad one (R180). -/
def execGoodFrame (l : Link) (body : List Byte) (check : Half) (s : State) : Result :=
  let s1 := s.takeDue
  if s1.receiving && s1.continues l (frameRest body check) then
    .next (if goodFrameOk body check then (s1.hunt l).bufferFrame l body else (s1.hunt l).discardFrame l)
  else .next s1

/-- The cause really makes the frame bad (R180). -/
def causeHolds : BadCause → Bool
  | .length n => !(decide (2 ≤ n.toNat) && decide (n.toNat ≤ Config.bodyMax))
  | .check body check => !goodFrameOk body check

/-- The bytes of a bad frame after its lead byte. -/
def badBytes : BadCause → List Byte
  | .length n => [n]
  | .check body check => frameRest body check

/-- BAD_FRAME (R180). -/
def execBadFrame (l : Link) (cause : BadCause) (s : State) : Result :=
  let s1 := s.takeDue
  .next
    (if s1.receiving && causeHolds cause && s1.continues l (badBytes cause) then (s1.hunt l).discardFrame l else s1)

/-- The bytes received since a lead byte leave the frame unfinished, its length possible: the silence falls inside a
frame (R180). -/
def insideFrame : List Byte → Bool
  | [] => true
  | n :: rest =>
    decide (2 ≤ n.toNat) && decide (n.toNat ≤ Config.bodyMax) && decide (rest.length < n.toNat + 2)

/-- FRAME_SILENCE (R180). -/
def execFrameSilence (l : Link) (received : List Byte) (s : State) : Result :=
  let s1 := s.takeDue
  .next
    (if s1.receiving && insideFrame received && s1.continues l received then (s1.hunt l).discardFrame l else s1)

/-- The last byte of a link's reply has gone: the hand is free and the next frame may be taken (R182). -/
def State.replyGone (s : State) (l : Link) : State :=
  match (s.link l).hand with
  | some (.replying _) => (s.setHand l none).takeFrame l
  | _ => s

/-- REPLY_SENT (R182). -/
def execReplySent (l : Link) (s : State) : Result :=
  let s1 := s.takeDue
  .next (if s1.running then s1.replyGone l else s1)

end Sys2Proof.Machine
end

