-- ==== Sys2Proof/Machine/Movement.lean ====
section
/-! DEFINITION. OPEN, PLACE and PACK of carriers (4.6) and of containers (5.6, R126). -/

namespace Sys2Proof.Machine

/-! OPEN -/

/-- OPEN of a carrier where it stands (R79). -/
def openInPlace (n : Nat) (c : Carrier) (changed : Bool) : Owner := fun s =>
  let mode := s.modeUnder c.parent c.zone false
  if c.parent = none then s.refuseCarrier n changed stBadField []
  else if c.life = .spent ∧ mode = .bake ∧ c.mode ≠ .bake then
    s.refuseCarrier n changed stGated [gatedReason c.life]
  else s.movedReply n c { parent := c.parent, packed := false, zone := c.zone, mode := mode }

/-- OPEN of a carrier at a location (R79). -/
def openAt (l : Link) (label : Label) (loc n : Nat) (c : Carrier) (changed : Bool) : Owner := fun s =>
  if (Parent.container? c.parent).isSome then s.refuseCarrier n changed stNested []
  else
    match s.enterCarrier l label loc c.life (decide (c.hold ≠ 0)) (decide (s.locOfParent c.parent ≠ some loc)) with
    | .refused s1 st extra => s1.refuseCarrier n changed st extra
    | .admitted s1 z =>
      s1.movedReply n c { parent := some (.place z loc), packed := false, zone := some z, mode := s1.modeIn (some z) false }

/-- OPEN of a carrier after its settle (R79). -/
def openCarrier (l : Link) (label : Label) (loc : Option Nat) (n : Nat) : Owner :=
  withSettled n fun c changed s =>
    if !c.packed then s.refuseCarrier n changed stState []
    else
      match loc with
      | none => openInPlace n c changed s
      | some loc => openAt l label loc n c changed s

/-- A PACK or UNPACK batch of a container whose conditions have passed (R100, R125). -/
def queuePacking (l : Link) (job : BatchJob) (n : Nat) : Owner := fun s =>
  if s.subtreeInTransit n then s.refuseContainer n stBusy []
  else if !s.batchRoom then s.refuseContainer n stFull []
  else
    let s1 := s.acceptBatch job l (s.subCarriers n) (s.subContainers n)
    (s1, queuedReply s1 s.nextBatch n)

/-- OPEN of a container (R100). -/
def openContainer (l : Link) (loc : Option Nat) (n : Nat) : Owner := fun s =>
  if loc.isSome then s.refuseContainer n stBadField []
  else if !s.packedFlag n then s.refuseContainer n stState []
  else queuePacking l (.unpack n) n s

/-- The owners take OPEN (R79, R100). -/
def ownOpen (l : Link) (label : Label) (stamp : Option Half) (loc : Option Half) : Owner :=
  itemRequest l label (stampOperand stamp) (openCarrier l label (locOperand loc)) (openContainer l (locOperand loc))

/-- OPEN (R79, R100). -/
def execOpen (l : Link) (tag : Byte) (label : Label) (stamp : Option Half) (loc : Option Half) (s : State) : Result :=
  serve l (.openItem l tag label stamp loc) (ownOpen l label stamp loc) s

/-! PLACE -/

/-- PLACE of a carrier that has passed its conditions (R81). -/
def placeAdmitted (loc n : Nat) (c : Carrier) (changed : Bool) (z : Nat) : Owner := fun s =>
  if s.locOfParent c.parent = some loc then
    let s1 := s.bumpCarrierIf n changed
    (s1, s1.doneMoved n)
  else
    s.movedReply n c
      { parent := some (.place z loc), packed := c.packed, zone := some z, mode := s.modeIn (some z) c.packed }

/-- PLACE of a carrier after its settle (R80). -/
def placeCarrier (l : Link) (label : Label) (loc n : Nat) : Owner :=
  withSettled n fun c changed s =>
    if (Parent.container? c.parent).isSome then s.refuseCarrier n changed stNested []
    else
      match s.enterCarrier l label loc c.life (decide (c.hold ≠ 0)) (decide (s.locOfParent c.parent ≠ some loc)) with
      | .refused s1 st extra => s1.refuseCarrier n changed st extra
      | .admitted s1 z => placeAdmitted loc n c changed z s1

/-- The QUEUED reply of a MOVE: batch number, target zone, its gated flag, the gate forecast (R126). -/
def moveReply (s : State) (number n target forecast : Nat) : List Byte :=
  queuedReply s number n ++ u8 target ++ yes (s.zone target).cfg.gated ++ u16 forecast

/-- A PLACE of a container offered to the Batch Unit as a MOVE (R101, R126). -/
def queueMove (l : Link) (loc n target : Nat) : Owner := fun s =>
  if s.subtreeInTransit n then s.refuseContainer n stBusy []
  else if !s.batchRoom then s.refuseContainer n stFull []
  else if (s.zone target).evacuating then s.refuseContainer n stBusy []
  else
    let job := BatchJob.move n ((s.container n).bind (·.zone)) target loc
    let s1 := s.acceptBatch job l (s.subCarriers n) (s.subContainers n)
    (s1, moveReply s1 s.nextBatch n target (s.forecast target (s.subCarriers n)))

/-- PLACE of a container (R101). -/
def placeContainer (l : Link) (label : Label) (loc n : Nat) : Owner := fun s =>
  if (s.parentOf n).isSome then s.refuseContainer n stNested []
  else
    match s.mapLoc loc with
    | none => (s.unmappedFault l (some label) loc).refuseContainer n stUnmapped []
    | some target =>
      if s.locOfParent ((s.container n).bind (·.parent)) = some loc then s.doneContainer n
      else queueMove l loc n target s

/-- The owners take PLACE (R80, R101). -/
def ownPlace (l : Link) (label : Label) (stamp loc : Half) : Owner :=
  itemRequest l label stamp.toNat (placeCarrier l label loc.toNat) (placeContainer l label loc.toNat)

/-- PLACE (R80, R101). -/
def execPlace (l : Link) (tag : Byte) (label : Label) (stamp loc : Half) (s : State) : Result :=
  serve l (.place l tag label stamp loc) (ownPlace l label stamp loc) s

/-! PACK -/

/-- PACK of a carrier after its settle (R82). -/
def packCarrier (n : Nat) : Owner :=
  withSettled n fun c changed s =>
    if c.packed then s.refuseCarrier n changed stState []
    else s.movedReply n c { parent := c.parent, packed := true, zone := c.zone, mode := .still }

/-- PACK of a container (R100). -/
def packContainer (l : Link) (n : Nat) : Owner := fun s =>
  if s.packedFlag n then s.refuseContainer n stState []
  else queuePacking l (.pack n) n s

/-- The owners take PACK (R82, R100). -/
def ownPack (l : Link) (label : Label) (stamp : Option Half) : Owner :=
  itemRequest l label (stampOperand stamp) packCarrier (packContainer l)

/-- PACK (R82, R100). -/
def execPack (l : Link) (tag : Byte) (label : Label) (stamp : Option Half) (s : State) : Result :=
  serve l (.pack l tag label stamp) (ownPack l label stamp) s

end Sys2Proof.Machine
end

