-- ==== Sys2Proof/Machine/Power.lean ====
section
/-! DEFINITION. The Power Controller's events (chapter 12): the power-fail warning, entry to RETAIN, losses of power,
cold and warm starts, RESETn. -/

namespace Sys2Proof.Machine

/-! The warning -/

/-- A request in hand that waits for a store grant is discarded; every other hand goes on (R193). -/
def State.keepHand (s : State) : Option Hand → Option Hand
  | some (.waiting c) => if s.waitsForStore c then none else some (.waiting c)
  | h => h

/-- A link stops taking frames: the frame part-way through reception and the buffered ones are lost (R193). -/
def State.windLink (s : State) (ls : LinkState) : LinkState :=
  { ls with frame := none, buffer := [], hand := s.keepHand ls.hand }

/-- The Claim Table is emptied, with no CLAIM_LAPSED (R155). -/
def State.dropClaims (s : State) : State := { s with claims := [] }

/-- The capture record and the watch are lost (R167). -/
def State.dropCapture (s : State) : State := { s with capture := none, moreFaults := false, watch := Watch.cold }

/-- The wind-down begins (R193). The capture record and the watch are lost with the rest of the volatile domain, as the
part enters RETAIN (R167). -/
def State.beginWindDown (s : State) : State :=
  { s.dropClaims with
    windDown := true
    hostLink := s.windLink s.hostLink
    floorLink := s.windLink s.floorLink }

/-- POWER_FAIL_WARNING (R193). -/
def execPowerFailWarning (s : State) : Result :=
  let s1 := s.takeDue
  .next (if s1.power = .run ∧ !s1.windDown then s1.beginWindDown else s1)

/-! Entry to RETAIN, and OFF -/

/-- The volatile domain is lost (R191). Its values in RETAIN are those every start gives (log entry 26); the assertion of
RESETn is forgotten with it, and taken again by the next RESET_ASSERTED (log entry 37). -/
def State.loseVolatile (s : State) : State :=
  { s.dropClaims.dropCapture with
    windDown := false
    resetAsserted := false
    lastStart := .cold
    patternPhase := 0
    hostLink := LinkState.start 0
    floorLink := LinkState.start 0
    lastServed := .floor
    portCount := 0
    owed := []
    heldOver := .none
    doorLevel := 0 }

/-- OFF: no state is held (R192). The queue of commands and the characters on the lines are the outside's. -/
def State.toOff (s : State) : State := { State.unpowered with pending := s.pending, line := s.line }

/-- The missed-minute count at entry to RETAIN (R193): the minutes since the assertion of RESETn, else 0. -/
def State.missedAtEntry (s : State) : Nat := if s.resetAsserted then s.missed else 0

/-- The power state becomes RETAIN (R192). -/
def State.toRetain (s : State) : State := { s.loseVolatile with power := .retain, missed := s.missedAtEntry }

/-- The wind-down is over: no request in hand and no reply under way (R193). -/
def State.woundDown (s : State) : Bool :=
  decide (s.power = .run) && s.windDown && s.hostLink.hand.isNone && s.floorLink.hand.isNone

/-- RETAIN_ENTRY (R192, R193). -/
def execRetainEntry (vback : Bool) (s : State) : Result :=
  let s1 := s.takeDue
  .next (if s1.woundDown then (if vback then s1.toRetain else s1.toOff) else s1)

/-- MAIN_POWER_LOSS (R192): a loss that PFWn has not announced; the check word is invalidated. -/
def execMainPowerLoss (vback : Bool) (s : State) : Result :=
  let s1 := s.takeDue
  .next
    (if s1.power = .run ∧ !s1.windDown then (if vback then { s1.toRetain with checkWord := false } else s1.toOff)
    else s1)

/-- BACKUP_LOSS (R191, R192): VBACK falls below its retention level in RETAIN with VMAIN absent. A fall with VMAIN present
has no effect (R191) and is not this command (log entry 36). -/
def execBackupLoss (s : State) : Result := .next (if s.power = .retain then s.toOff else s)

/-! Starts. RESETn is taken as released at every start, until a RESET_ASSERTED comes (log entry 37). -/

/-- The outage charge of an active zone (R195): M times the outage rate to E. -/
def Zone.chargeOutage (m : Nat) (z : Zone) : Zone := { z with e := z.e + m * z.cfg.outageRate }

/-- An active zone at a warm start (R195): charged, stale, its door sampled, its mode and rates recomputed. -/
def State.restartZone (s : State) (m : Nat) (z : Zone) : Zone :=
  if z.cfg.active then s.recompute (s.sampleDoor { z.chargeOutage m with stale := true, countdown := 0 })
  else { z with doorOpen := false, openMinutes := 0, doorDegraded := false }

/-- The volatile state a start begins with: links empty at their strapped speeds, door lines sampled (R190, R195). -/
def State.startVolatile (s : State) (pins : StartPins) : State :=
  { s.loseVolatile with
    power := .run
    hostLink := LinkState.start pins.hostStraps
    floorLink := LinkState.start pins.floorStraps
    doorLevel := pins.doors }

/-- OUTAGE with value M when M is above 0 (R195). -/
def State.raiseOutage (s : State) (m : Nat) : State :=
  if 0 < m then s.raise .outage .powerController (some (.minutes m)) else s

/-- The acts of R195, the start recorded under a kind. -/
def State.warmStart (s : State) (kind : StartKind) (pins : StartPins) : State :=
  let s1 := s.startVolatile pins
  let s2 := { s1 with zones := s1.zones.map (s1.restartZone s.missed), missed := 0, lastStart := kind }
  s2.raiseOutage s.missed

/-- WARM_START (R195). -/
def execWarmStart (pins : StartPins) (s : State) : Result :=
  .next (if s.power = .retain ∧ s.checkWord then s.warmStart .warm pins else s)

/-- A cold start (R197): every block at its cold values, the check word, then BACKUP_LOST. -/
def State.coldStart (s : State) (pins : StartPins) : State :=
  let s1 : State :=
    { State.unpowered with
      pending := s.pending
      line := s.line
      power := .run
      checkWord := true
      lastStart := .cold
      hostLink := LinkState.start pins.hostStraps
      floorLink := LinkState.start pins.floorStraps
      doorLevel := pins.doors }
  s1.raiseFault .backupLost .power none none none

/-- A cold start is what follows the return of power (R192): from OFF, or from RETAIN without the check word. -/
def State.startsCold (s : State) : Bool := decide (s.power = .off) || (decide (s.power = .retain) && !s.checkWord)

/-- COLD_START (R197). -/
def execColdStart (pins : StartPins) (s : State) : Result := .next (if s.startsCold then s.coldStart pins else s)

/-! RESETn -/

/-- A link loses its frame in progress, its buffer and its request in hand (R190, R196). -/
def LinkState.cut (ls : LinkState) : LinkState := { ls with frame := none, buffer := [], hand := none }

/-- RESETn is taken (R196). -/
def State.assertReset (s : State) : State :=
  { s.dropClaims with resetAsserted := true, missed := 0, hostLink := s.hostLink.cut, floorLink := s.floorLink.cut }

/-- RESET_ASSERTED (R196): in RUN; during the wind-down it has no effect. -/
def execResetAsserted (s : State) : Result :=
  let s1 := s.takeDue
  .next (if s1.receiving then s1.assertReset else s1)

/-- RESET_RELEASED (R196): the acts of R195; in RETAIN, and once PFWn is taken, it does nothing. -/
def execResetReleased (pins : StartPins) (s : State) : Result :=
  .next (if s.power = .run ∧ s.resetAsserted ∧ !s.windDown then s.warmStart .reset pins else s)

end Sys2Proof.Machine
end

