-- ==== Sys2Proof/Machine/Queries.lean ====
section
/-! DEFINITION. LOOKUP (R86, R104), ZONEINFO (R48, R118), RESIDENTS (R87), BATCHINFO (R141) and CLASSINFO (R58). -/

namespace Sys2Proof.Machine

/-! LOOKUP -/

/-- The credits remaining to the next threshold (R86). -/
def creditsRemaining (v : ClassValues) (c : Carrier) : Option Nat :=
  if v.limited then
    match c.life with
    | .fresh => some (v.warnLevel - c.base)
    | .warned => some (v.limit - c.base)
    | .expired => none
    | .spent => none
  else none

/-- Identity and place of a carrier (R86). -/
def State.encCarrierPlace (s : State) (slot : Nat) (c : Carrier) : List Byte :=
  u16 slot ++ encLabel (s.labelOf (.carrier slot)) ++ u8 c.cls ++ opt encClock c.enrolStamp ++ yes c.packed ++
    s.encParent c.parent ++ orNone c.zone ++ [modeCode c.mode]

/-- The account of a carrier; its life status stands before (R86). -/
def State.encCarrierAccount (s : State) (c : Carrier) : List Byte :=
  u32 c.base ++ opt u32 (creditsRemaining (s.classValues c.cls) c) ++ u32 c.progress ++ u8 c.bakeCount ++
    yes c.eligible ++ opt u48 c.eKey ++ opt u48 c.pKey

/-- Hold, flags and history of a carrier; its stamp stands before (R86). -/
def State.encCarrierHistory (s : State) (slot : Nat) (c : Carrier) : List Byte :=
  u8 c.hold ++ yes c.inTransit ++ [claimedCode (s.claimOf (.carrier slot))] ++ u32 (BitVec.ofInt 32 c.carried).toNat ++
    encList (c.closed.map encClosed) ++ encOpen c.openSeg

/-- The record of a carrier as LOOKUP returns it (R86). -/
def State.encCarrier (s : State) (slot : Nat) (c : Carrier) : List Byte :=
  s.encCarrierPlace slot c ++ s.encCarrierAccount c ++ s.encCarrierHistory slot c

/-- LOOKUP of a carrier: settled, then reported (R86). -/
def lookupCarrier (slot : Nat) : Owner := fun s =>
  let s1 := s.settleStamped slot
  match s1.carrier slot with
  | none => (s1, [stNotFound])
  | some c => (s1, s1.pastStep8 stDone (.carrier slot) ++ s1.encCarrier slot c)

/-- An item: its kind, its number and its label (R186). -/
def State.encItem (s : State) (it : Item) : List Byte :=
  match it with
  | .carrier n => [0x01] ++ u16 n ++ encLabel (s.labelOf it)
  | .container n => [0x02] ++ u16 n ++ encLabel (s.labelOf it)

/-- Up to eight members from the start index, and the next index (R104). -/
def State.encMembers (s : State) (c : Container) (start : Nat) : List Byte :=
  let page := (c.members.drop start).take 8
  let next := start + page.length
  encList (page.map s.encItem) ++ opt u8 (if next < c.members.length then some next else none)

/-- The record of a container as LOOKUP returns it (R104). -/
def State.encContainer (s : State) (n : Nat) (c : Container) (start : Nat) : List Byte :=
  u16 n ++ encLabel (s.labelOf (.container n)) ++ s.encParent c.parent ++ orNone c.zone ++
    opt u16 ((s.placeOf n).map (·.2)) ++ yes c.packed ++ yes (s.effectivelyPacked n) ++ u8 c.depth ++ u16 c.subtree ++
    u8 c.members.length ++ s.encMembers c start ++ yes c.inTransit ++ [claimedCode (s.claimOf (.container n))]

/-- LOOKUP of a container (R104). -/
def lookupContainer (start n : Nat) : Owner := fun s =>
  match s.container n with
  | none => (s, [stNotFound])
  | some c => (s, s.pastStep8 stDone (.container n) ++ s.encContainer n c start)

/-- The owners take LOOKUP after steps 1 to 3 (R86, R104). -/
def ownLookup (label : Label) (start : Option Byte) : Owner := fun s =>
  match s.find label with
  | none => (s, [stNotFound])
  | some (.carrier n) => lookupCarrier n s
  | some (.container n) => lookupContainer (start.getD 0).toNat n s

/-- LOOKUP (R86, R104). -/
def execLookup (l : Link) (tag : Byte) (label : Label) (start : Option Byte) (s : State) : Result :=
  serve l (.lookup l tag label start) (ownLookup label start) s

/-! ZONEINFO -/

/-- The configuration group (R48). -/
def encZoneConfig (c : ZoneConfig) : List Byte :=
  yes c.active ++ [kindByte c.kind] ++ yes c.gated ++ u16 c.base ++ u8 c.k ++ [sourceCode c.source] ++ u8 c.fixedRate ++
    u8 c.staleLimit ++ orNone c.doorLine ++ u8 c.doorGrace ++ orNone c.indicatorLine ++ u8 c.outageRate

/-- A reading (R186). -/
def encReading (r : Reading) : List Byte := s16 r.temp ++ u16 r.hum.toNat

/-- The air group (R48). -/
def encZoneAir (g : RateGrid) (z : Zone) : List Byte :=
  [zoneModeCode z.mode] ++ yes z.stale ++ u8 z.countdown ++ opt encReading z.reading ++
    opt u8 (z.reading.map g.tempBand) ++ opt u8 (z.reading.map g.humBand)

/-- The door group, and rates and integrals (R48). -/
def encZoneDoor (z : Zone) : List Byte :=
  yes z.doorOpen ++ yes z.doorDegraded ++ u8 z.openMinutes ++ u8 z.doorEvents ++ u8 z.eRate ++ u8 z.pRate ++ u48 z.e ++
    u48 z.p

/-- The lists, counts and flags groups (R48). -/
def encZoneLists (z : Zone) : List Byte :=
  u16 z.eList.length ++ opt u48 (headKey z.eList) ++ u16 z.pList.length ++ opt u48 (headKey z.pList) ++ u16 z.residents ++
    u16 z.counts.fresh ++ u16 z.counts.warned ++ u16 z.counts.expired ++ u16 z.counts.spent ++ u16 z.containers ++
    yes z.evacuating

/-- The state of a zone as ZONEINFO returns it (R48). -/
def encZone (g : RateGrid) (z : Zone) : List Byte := encZoneConfig z.cfg ++ encZoneAir g z ++ encZoneDoor z ++ encZoneLists z

/-- The Zone Table answers ZONEINFO; the door events are read and cleared (R48, R118). -/
def ownZoneInfo (zone : Byte) : Owner := fun s =>
  (s.modZone zone.toNat fun z => { z with doorEvents := 0 }, stDone :: encZone s.grid (s.zone zone.toNat))

/-- ZONEINFO (R48). -/
def execZoneInfo (l : Link) (tag : Byte) (zone : Byte) (s : State) : Result :=
  serve l (.zoneInfo l tag zone) (ownZoneInfo zone) s

/-! RESIDENTS -/

/-- The residents of a zone at or above a slot, in slot order (R87). -/
def State.residentsFrom (s : State) (zone start : Nat) : List (Nat × Carrier) :=
  s.carriers.filter fun e => decide (e.2.zone = some zone) && decide (start ≤ e.1)

/-- An entry of RESIDENTS: slot, label, stored life status, in-transit (R87). -/
def State.encResident (s : State) (e : Nat × Carrier) : List Byte :=
  u16 e.1 ++ encLabel (s.labelOf (.carrier e.1)) ++ [lifeCode e.2.life] ++ yes e.2.inTransit

/-- The next slot when `n` entries are returned (R87). -/
def nextSlot (entries : List (Nat × Carrier)) (n : Nat) : Option Nat :=
  if n < entries.length then ((entries.take n).getLast?).map (·.1 + 1) else none

/-- The RESIDENTS reply with `n` entries. -/
def State.encResidents (s : State) (zone start n : Nat) : List Byte :=
  let entries := s.residentsFrom zone start
  [stDone] ++ u16 (s.zone zone).residents ++ encList ((entries.take n).map s.encResident) ++
    opt u16 (nextSlot entries n)

/-- How many entries a RESIDENTS returns: at most 16, as many as fit (R87, R184). -/
def State.residentsCount (s : State) (zone start : Nat) : Nat :=
  fitCount (fun n => 2 + (s.encResidents zone start n).length) (min 16 (s.residentsFrom zone start).length)

/-- The Exposure Engine answers RESIDENTS; nothing is settled (R87). -/
def ownResidents (zone : Byte) (start : Half) : Owner := fun s =>
  (s, s.encResidents zone.toNat start.toNat (s.residentsCount zone.toNat start.toNat))

/-- RESIDENTS (R87). -/
def execResidents (l : Link) (tag : Byte) (zone : Byte) (start : Half) (s : State) : Result :=
  serve l (.residents l tag zone start) (ownResidents zone start) s

/-! BATCHINFO -/

/-- A container by number and label. -/
def State.encContainerName (s : State) (n : Nat) : List Byte := u16 n ++ encLabel (s.labelOf (.container n))

/-- Subject, then direction and target, of a batch (R141). -/
def State.encJob (s : State) (j : BatchJob) : List Byte :=
  match j with
  | .move c _ t loc => s.encContainerName c ++ u8 t ++ u16 loc
  | .pack c => s.encContainerName c
  | .unpack c => s.encContainerName c
  | .nesting c t => s.encContainerName c ++ [0x00] ++ encLabel (s.labelOf (.container t))
  | .unnesting c => s.encContainerName c ++ [0x01]
  | .revision cls => u8 cls
  | .evacuate src t loc => u8 src ++ u8 t ++ u16 loc

/-- A batch kind that counts carriers left behind (R124). -/
def BatchJob.countsLeftBehind : BatchJob → Bool
  | .move .. => true
  | .evacuate .. => true
  | _ => false

/-- A batch record as BATCHINFO returns it (R141). The left-behind count, a field of MOVE and EVACUATE only, takes no
presence byte, which is the model's choice (log entry 16). -/
def State.encBatch (s : State) (b : Batch) : List Byte :=
  u8 b.number ++ [batchKindCode b.job.kind] ++ (if s.runningBatch = some b then [0x00] else [0x01]) ++
    [linkCode b.link] ++ s.encJob b.job ++ u16 b.done ++ u16 b.total ++
    (if b.job.countsLeftBehind then u16 b.leftBehind else [])

/-- The BATCHINFO reply with `n` records from the start position (R141). -/
def State.encBatches (s : State) (start n : Nat) : List Byte :=
  let entries := (s.batches.drop start).take n
  let next := start + entries.length
  [stDone, quiesceCode s.quiesce] ++ u8 s.batches.length ++ u8 s.nextBatch ++ encList (entries.map s.encBatch) ++
    opt u8 (if next < s.batches.length then some next else none)

/-- How many records a BATCHINFO returns (R141, R184). -/
def State.batchesCount (s : State) (start : Nat) : Nat :=
  fitCount (fun n => 2 + (s.encBatches start n).length) (s.batches.length - start)

/-- The Batch Unit answers BATCHINFO (R141). -/
def ownBatchInfo (start : Option Byte) : Owner := fun s =>
  (s, s.encBatches (start.getD 0).toNat (s.batchesCount (start.getD 0).toNat))

/-- BATCHINFO (R141). -/
def execBatchInfo (l : Link) (tag : Byte) (start : Option Byte) (s : State) : Result :=
  serve l (.batchInfo l tag start) (ownBatchInfo start) s

/-! CLASSINFO -/

/-- Credits as the minutes they were given in (R58). -/
def encMinutes (credits : Nat) : List Byte := u32 (credits / Config.creditsPerMinute)

/-- The warning level of a class, absent for an undefined or unlimited one (R58). -/
def ClassRec.warnLevel? (c : ClassRec) : Option Nat :=
  match c.values with
  | none => none
  | some v => if v.limited then some v.warnLevel else none

/-- A class record as CLASSINFO returns it (R58). -/
def encClass (c : ClassRec) : List Byte :=
  yes c.values.isSome ++ opt (fun v => encMinutes v.limit) c.values ++ opt (fun v => encMinutes v.ceiling) c.values ++
    opt (fun v => encMinutes v.bakeRequirement) c.values ++ opt (fun v => u8 v.warn) c.values ++
    opt (fun v => u8 v.bakeBudget) c.values ++ opt u32 c.warnLevel? ++ u16 c.inUse ++ u8 c.revisions

/-- The Class Table answers CLASSINFO (R58). -/
def ownClassInfo (cls : Byte) : Owner := fun s => (s, stDone :: encClass (s.cls cls.toNat))

/-- CLASSINFO (R58). -/
def execClassInfo (l : Link) (tag : Byte) (cls : Byte) (s : State) : Result :=
  serve l (.classInfo l tag cls) (ownClassInfo cls) s

end Sys2Proof.Machine
end

