-- ==== Sys2Proof/Machine/Steps.lean ====
section
/-! DEFINITION. The steps of a running batch (7.3): each is taken when the arbiter grants a step and the running
batch's next step is of its kind. -/

namespace Sys2Proof.Machine

/-- The kinds of step, one for each batch-step row of the table. -/
inductive StepKind where
  | moveCarrier
  | moveFinal
  | packCarrier
  | packFinal
  | reparentCarrier
  | reparentFinal
  | revision
  deriving DecidableEq, Repr

/-- A carrier step while carriers are left to the walk, the final step after (R128). -/
def Batch.walkStep (b : Batch) (carrier final : StepKind) : StepKind := if b.walk.isEmpty then final else carrier

/-- The kind of a batch's next step (R128). -/
def Batch.nextStep (b : Batch) : StepKind :=
  match b.job with
  | .move .. => b.walkStep .moveCarrier .moveFinal
  | .evacuate .. => b.walkStep .moveCarrier .moveFinal
  | .pack _ => b.walkStep .packCarrier .packFinal
  | .unpack _ => b.walkStep .packCarrier .packFinal
  | .nesting .. => b.walkStep .reparentCarrier .reparentFinal
  | .unnesting _ => b.walkStep .reparentCarrier .reparentFinal
  | .revision _ => .revision

/-- The batch whose step of a kind is granted now (R142). -/
def State.grantedStep (s : State) (k : StepKind) : Option Batch :=
  if s.awards .step then s.runningBatch.filter fun b => decide (b.nextStep = k) else none

/-- Take a step of a kind, under its grant (R128, R142). -/
def State.takeStep (s : State) (k : StepKind) (act : Batch → State → State) : State :=
  match s.grantedStep k with
  | none => s
  | some b => (act b s.grantStep).freeStore

/-- A batch-step row: due events first, then the step, if it is granted. -/
def stepRow (k : StepKind) (act : Batch → State → State) (s : State) : Result := .next (s.takeDue.takeStep k act)

/-- Write the oldest batch record. -/
def State.setOldest (s : State) (b : Batch) : State := { s with batches := b :: s.batches.tail }

/-- The cursor moves past a carrier step and steps done rises by 1 (R128). -/
def Batch.stepped (b : Batch) : Batch := { b with walk := b.walk.tail, done := b.done + 1 }

/-- A carrier step: the act on the carrier at the cursor, then the cursor. -/
def carrierStep (act : Batch → Nat → State → State × Batch) (b : Batch) (s : State) : State :=
  match b.walk with
  | [] => s
  | n :: _ =>
    let r := act b n s
    r.1.setOldest r.2.stepped

/-! MOVE and EVACUATE (R129 to R131) -/

/-- The target zone and location of a MOVE or EVACUATE. -/
def BatchJob.target : BatchJob → Nat × Nat
  | .move _ _ t loc => (t, loc)
  | .evacuate _ t loc => (t, loc)
  | _ => (0, 0)

/-- The source zone of a MOVE or EVACUATE, absent for an unplaced container (R126). -/
def BatchJob.source : BatchJob → Option Nat
  | .move _ src _ _ => src
  | .evacuate src _ _ => some src
  | _ => none

/-- The gate and the oven, as the target zone stands at the step (R129 conditions 1 and 2). -/
def State.stepBarred (s : State) (t : Nat) (c : Carrier) : Bool :=
  ((s.zone t).cfg.gated && gateBars c.life (decide (c.hold ≠ 0))) || ovenBars (s.zone t).cfg.kind c.life

/-- The tests of R129 in order; the watch is tested last, and only by a carrier that passed the others. -/
def State.stepEntry (s : State) (label : Label) (t loc : Nat) (c : Carrier) : State × Bool :=
  if s.stepBarred t c then (s, false)
  else
    let r := s.testArrival .batch label loc t
    (r.1, !r.2)

/-- A carrier that passed takes its new residence (R129). A nested carrier already in the target zone changes no
field. -/
def State.stepMove (s : State) (n t loc : Nat) (c : Carrier) (changed : Bool) : State :=
  let nested := (Parent.container? c.parent).isSome
  if nested ∧ c.zone = some t then s.bumpCarrierIf n changed
  else
    let parent := if nested then c.parent else some (.place t loc)
    let r : Residence := { parent := parent, packed := c.packed, zone := some t, mode := s.modeUnder parent (some t) c.packed }
    s.moveCarrier n c r

/-- A carrier leaves its moving container for the place the container's chain had (R130); the step that makes it BAKE
raises BAKE_REFUSED as any other does (R76, R169; log entry 14). -/
def State.detach (s : State) (n : Nat) (c : Carrier) (changed : Bool) : State :=
  match Parent.container? c.parent with
  | none => s.bumpCarrierIf n changed
  | some p =>
    let r : Residence :=
      { parent := s.placeParent p, packed := c.packed, zone := c.zone, mode := s.modeIn c.zone c.packed }
    let s1 := (s.dropMember p (.carrier n)).subSubtree (s.chain p) 1
    s1.moveCarrier n c r

/-- A carrier is left behind (R130). -/
def State.leaveBehind (s : State) (n : Nat) (c : Carrier) (changed : Bool) : State :=
  ((s.detach n c changed).markCarrier false n).raise .leftBehind (s.itemSubject (.carrier n)) none

/-- The record of a batch that left a carrier behind (R130). -/
def Batch.without (b : Batch) (n : Nat) : Batch :=
  { b with leftBehind := b.leftBehind + 1, carriers := b.carriers.filter (· ≠ n) }

/-- A carrier step of a MOVE or EVACUATE (R129). -/
def moveCarrierAct (b : Batch) (n : Nat) (s : State) : State × Batch :=
  let first := s.settle n
  match first.1.carrier n with
  | none => (first.1, b)
  | some c =>
    let entry := first.1.stepEntry (s.labelOf (.carrier n)) b.job.target.1 b.job.target.2 c
    if entry.2 then (entry.1.stepMove n b.job.target.1 b.job.target.2 c first.2, b)
    else (entry.1.leaveBehind n c first.2, b.without n)

/-- MOVE_CARRIER_STEP (R129). -/
def execMoveCarrierStep (s : State) : Result := stepRow .moveCarrier (carrierStep moveCarrierAct) s

/-- A container of the scope is its top: its parent is no container. -/
def State.isTop (s : State) (n : Nat) : Bool := (s.parentOf n).isNone

/-- One container of the scope arrives (R131): the target's zone, the target pair for a top-level one, one advance
of the stamp when either changes. -/
def arriveContainer (top : Bool) (t loc : Nat) (c : Container) : Container :=
  let parent := if top then some (Parent.place t loc) else c.parent
  { c with
    parent := parent
    zone := some t
    stamp := if c.parent ≠ parent ∨ c.zone ≠ some t then nextStamp c.stamp else c.stamp }

/-- Bring the containers of a scope to the target, with the counts of both zones (R131). -/
def State.bringContainers (s : State) (source : Option Nat) (t loc : Nat) (ns : List Nat) : State :=
  let s1 := s.modZoneOpt source fun z => { z with containers := z.containers - ns.length }
  let s2 := s1.modZone t fun z => { z with containers := z.containers + ns.length }
  ns.foldl (fun st n => st.modContainer n (arriveContainer (s.isTop n) t loc)) s2

/-- The watch sees each top-level container arrive, and refuses none (R131). -/
def State.watchTops (s : State) (t loc : Nat) (tops : List Nat) : State :=
  tops.foldl (fun s n => s.testFinalArrival (s.labelOf (.container n)) loc t) s

/-- The final step of a MOVE or EVACUATE (R131). -/
def moveFinalAct (b : Batch) (s : State) : State :=
  let t := b.job.target
  let s1 := s.bringContainers b.job.source t.1 t.2 b.containers
  let s2 := s1.watchTops t.1 t.2 (b.containers.filter s.isTop)
  (s2.markAll false b.carriers b.containers).completeBatch b

/-- MOVE_FINAL_STEP (R131). -/
def execMoveFinalStep (s : State) : Result := stepRow .moveFinal moveFinalAct s

/-! PACK, UNPACK and REPARENT (R132, R133) -/

/-- Give a carrier the mode its new chain implies, within its zone: a residence change when the mode differs, else
the settle and nothing more (R132, R133). -/
def stepRemode (n : Nat) (mode : State → Carrier → ResMode) (s : State) : State :=
  let first := s.settle n
  match first.1.carrier n with
  | none => first.1
  | some c =>
    let m := mode first.1 c
    if m = c.mode then first.1.bumpCarrierIf n first.2
    else
      let r : Residence := { parent := c.parent, packed := c.packed, zone := c.zone, mode := m }
      ((first.1.changeResidence n r).1.bakeRefusal n true).bumpCarrier n

/-- The subject container of a batch, and the packed flag a PACK or UNPACK gives it (R132). -/
def BatchJob.packing : BatchJob → Nat × Bool
  | .pack n => (n, true)
  | .unpack n => (n, false)
  | _ => (0, false)

/-- The mode of a carrier as though a container already held its new packed flag (R132). -/
def State.modeIfPacked (x : Nat) (packed : Bool) (s : State) (c : Carrier) : ResMode :=
  s.modeIn c.zone (c.packed || (s.chainOfParent c.parent).any fun m => if m = x then packed else s.packedFlag m)

/-- A carrier step of a PACK or UNPACK (R132). -/
def packCarrierAct (b : Batch) (n : Nat) (s : State) : State × Batch :=
  (stepRemode n (State.modeIfPacked b.job.packing.1 b.job.packing.2) s, b)

/-- PACK_UNPACK_CARRIER_STEP (R132). -/
def execPackUnpackCarrierStep (s : State) : Result := stepRow .packCarrier (carrierStep packCarrierAct) s

/-- The final step of a PACK or UNPACK (R132). -/
def packFinalAct (b : Batch) (s : State) : State :=
  let x := b.job.packing.1
  let s1 := (s.modContainer x fun c => { c with packed := b.job.packing.2 }).bumpContainer x
  (s1.markAll false b.carriers b.containers).completeBatch b

/-- PACK_UNPACK_FINAL_STEP (R132). -/
def execPackUnpackFinalStep (s : State) : Result := stepRow .packFinal packFinalAct s

/-- The subject container of a REPARENT and the target it goes to, if any. -/
def BatchJob.reparent : BatchJob → Nat × Option Nat
  | .nesting x t => (x, some t)
  | .unnesting x => (x, none)
  | _ => (0, none)

/-- A chain up to a container, that container included. -/
def chainUpTo (x : Nat) : List Nat → List Nat
  | [] => []
  | n :: rest => if n = x then [n] else n :: chainUpTo x rest

/-- The mode of a carrier as though X already stood under its new parent (R133). -/
def State.modeIfReparented (x : Nat) (target : Option Nat) (s : State) (c : Carrier) : ResMode :=
  let above :=
    match target with
    | none => []
    | some t => s.chain t
  s.modeIn c.zone (c.packed || (chainUpTo x (s.chainOfParent c.parent) ++ above).any s.packedFlag)

/-- A carrier step of a REPARENT (R133). -/
def reparentCarrierAct (b : Batch) (n : Nat) (s : State) : State × Batch :=
  (stepRemode n (State.modeIfReparented b.job.reparent.1 b.job.reparent.2) s, b)

/-- REPARENT_CARRIER_STEP (R133). -/
def execReparentCarrierStep (s : State) : Result := stepRow .reparentCarrier (carrierStep reparentCarrierAct) s

/-- The final step of a REPARENT (R133). -/
def reparentFinalAct (b : Batch) (s : State) : State :=
  let x := b.job.reparent.1
  let s1 :=
    match b.job.reparent.2 with
    | some t => s.joinContainer x t
    | none => s.leaveContainer x
  (s1.markAll false b.carriers b.containers).completeBatch b

/-- REPARENT_FINAL_STEP (R133). -/
def execReparentFinalStep (s : State) : Result := stepRow .reparentFinal reparentFinalAct s

/-! CLASS_REVISION (R134) -/

/-- The class of a CLASS_REVISION. -/
def BatchJob.revised : BatchJob → Nat
  | .revision c => c
  | _ => 0

/-- Settle the carrier of a slot when it is of a class (R134). -/
def State.reviseSlot (s : State) (slot cls : Nat) : State :=
  match s.carrier slot with
  | none => s
  | some c => if c.cls = cls then s.settleStamped slot else s

/-- A step of a CLASS_REVISION at the slot of its cursor; completion after slot 4095 (R134). -/
def revisionAct (b : Batch) (s : State) : State :=
  let s1 := s.reviseSlot b.done b.job.revised
  if b.done + 1 < Config.carrierSlots then s1.setOldest b.stepped else s1.completeBatch b

/-- CLASS_REVISION_STEP (R134). -/
def execClassRevisionStep (s : State) : Result := stepRow .revision revisionAct s

end Sys2Proof.Machine
end

