-- ==== Sys2Proof/Machine/Tables.lean ====
section
/-! DEFINITION. SETZONE (2.2), SETCLASS (3.2), SETGRID (R62) and AMBIENT (6.1). -/

namespace Sys2Proof.Machine

/-! SETZONE -/

/-- The zone holds residents or containers (R28). -/
def Zone.occupied (z : Zone) : Bool := decide (0 < z.residents) || decide (0 < z.containers)

/-- A new configuration deactivates the zone or changes its kind (R28). -/
def Zone.uproots (z : Zone) (c : ZoneConfig) : Bool :=
  (z.cfg.active && !c.active) || decide (z.cfg.kind ≠ c.kind)

/-- The first condition of R28 that refuses a new configuration. -/
def State.setZoneRefusal (s : State) (n : Nat) (c : ZoneConfig) : Option Byte :=
  let z := s.zone n
  if z.uproots c && s.heldByBatch n then some stBusy
  else if z.uproots c && z.occupied then some stOccupied
  else none

/-- A zone that follows no line: door closed, no minutes, no degradation (R113). -/
def Zone.doorless (z : Zone) : Zone := { z with doorOpen := false, openMinutes := 0, doorDegraded := false }

/-- The countdown under a new stale limit (R110). -/
def Zone.relimit (z : Zone) (c : ZoneConfig) : Zone :=
  { z with countdown := if z.cfg.staleLimit = c.staleLimit then z.countdown else min z.countdown c.staleLimit }

/-- The door fields of a zone that stays active, under a new line or grace (R117). `z` has the old configuration. -/
def State.redoor (s : State) (z : Zone) (c : ZoneConfig) : Zone :=
  let new := { z with cfg := c }
  if z.cfg.doorLine ≠ c.doorLine then s.sampleDoor new
  else if z.cfg.doorGrace ≠ c.doorGrace then { new with doorDegraded := z.doorOpen && decide (c.doorGrace ≤ z.openMinutes) }
  else new

/-- A zone under a configuration with no door line; another is as it was (R113). -/
def Zone.undoored (z : Zone) : Zone := if z.cfg.doorLine = none then z.doorless else z

/-- A zone under an accepted configuration, its mode and rates not yet recomputed (R29, R30, R110, R117). -/
def State.reconfigure (s : State) (z : Zone) (c : ZoneConfig) : Zone :=
  if c.active then
    if z.cfg.active then s.redoor (z.relimit c) c
    else s.sampleDoor { z with cfg := c, stale := true, countdown := 0 }
  else { z with cfg := c }.undoored

/-- The Zone Table takes SETZONE (R27, R28). -/
def ownSetZone (f : ZoneFields) : Owner := fun s =>
  let n := f.zone.toNat
  let c := zoneConfigOf f
  if s.quiesce ≠ .active then (s, [stQuiesced])
  else
    match s.setZoneRefusal n c with
    | some st => (s, [st])
    | none => (s.putZone .door n (s.reconfigure (s.zone n) c), [stDone])

/-- SETZONE (R27). -/
def execSetZone (l : Link) (tag : Byte) (fields : ZoneFields) (s : State) : Result :=
  serve l (.setZone l tag fields) (ownSetZone fields) s

/-! SETCLASS -/

/-- Store the values of a class (R50). -/
def State.storeClass (s : State) (n : Nat) (v : ClassValues) : State := s.setCls n { s.cls n with values := some v }

/-- The Class Table takes SETCLASS DEFINE (R52, R53). -/
def ownSetClassDefine (cls : Byte) (v : ClassFields) : Owner := fun s =>
  if s.quiesce ≠ .active then (s, [stQuiesced])
  else if (s.cls cls.toNat).values.isSome then (s, [stDuplicate])
  else (s.storeClass cls.toNat (classValuesOf v), [stDone])

/-- SETCLASS DEFINE (R53). -/
def execSetClassDefine (l : Link) (tag : Byte) (cls : Byte) (values : ClassFields) (s : State) : Result :=
  serve l (.setClassDefine l tag cls values) (ownSetClassDefine cls values) s

/-- A revision in use: the batch, the values, the revisions pending (R55). -/
def reviseInUse (l : Link) (n : Nat) (v : ClassValues) : Owner := fun s =>
  if !s.batchRoom then (s, [stFull])
  else
    let s1 := (s.acceptBatch (.revision n) l [] []).storeClass n v
    let s2 := s1.setCls n { s1.cls n with revisions := (s1.cls n).revisions + 1 }
    (s2, stQueued :: u8 s.nextBatch)

/-- The Class Table takes SETCLASS REVISE (R52, R54, R55). -/
def ownSetClassRevise (l : Link) (cls : Byte) (f : ClassFields) : Owner := fun s =>
  let n := cls.toNat
  let v := classValuesOf f
  if s.quiesce ≠ .active then (s, [stQuiesced])
  else
    match (s.cls n).values with
    | none => (s, [stUndefinedClass])
    | some old =>
      if old = v then (s, [stDone])
      else if (s.cls n).inUse = 0 then (s.storeClass n v, [stDone])
      else reviseInUse l n v s

/-- SETCLASS REVISE (R54, R55). -/
def execSetClassRevise (l : Link) (tag : Byte) (cls : Byte) (values : ClassFields) (s : State) : Result :=
  serve l (.setClassRevise l tag cls values) (ownSetClassRevise l cls values) s

/-- The Class Table takes SETCLASS UNDEFINE (R52, R57). -/
def ownSetClassUndefine (cls : Byte) : Owner := fun s =>
  let r := s.cls cls.toNat
  if s.quiesce ≠ .active then (s, [stQuiesced])
  else if r.values = none then (s, [stUndefinedClass])
  else if 0 < r.inUse then (s, [stOccupied])
  else if 0 < r.revisions then (s, stPending :: u8 r.revisions)
  else (s.setCls cls.toNat { r with values := none }, [stDone])

/-- SETCLASS UNDEFINE (R57). -/
def execSetClassUndefine (l : Link) (tag : Byte) (cls : Byte) (s : State) : Result :=
  serve l (.setClassUndefine l tag cls) (ownSetClassUndefine cls) s

/-! SETGRID -/

/-- Recompute every active zone, with no alert (R62). -/
def State.recomputeActive (s : State) : State :=
  { s with zones := s.zones.map fun z => if z.cfg.active then s.recompute z else z }

/-- The Rate Grid takes SETGRID (R62). -/
def ownSetGrid (f : GridFields) : Owner := fun s =>
  if s.quiesce ≠ .active then (s, [stQuiesced])
  else ({ s with grid := gridOf f }.recomputeActive, [stDone])

/-- SETGRID (R62). -/
def execSetGrid (l : Link) (tag : Byte) (fields : GridFields) (s : State) : Result :=
  serve l (.setGrid l tag fields) (ownSetGrid fields) s

/-! AMBIENT -/

/-- A zone with a valid reading taken, its mode and rates not yet recomputed (R107). -/
def Zone.takeReading (z : Zone) (r : Reading) : Zone :=
  { z with reading := some r, countdown := z.cfg.staleLimit, stale := false }

/-- The DONE reply of AMBIENT (R107). -/
def encAmbient (g : RateGrid) (z : Zone) (r : Reading) : List Byte :=
  [stDone, zoneModeCode z.mode] ++ yes z.stale ++ yes z.doorDegraded ++ u8 (g.tempBand r) ++ u8 (g.humBand r) ++
    u8 z.eRate ++ u8 z.pRate

/-- A valid reading (R107). -/
def validReading (n : Nat) (r : Reading) : Owner := fun s =>
  let s1 := s.putZone .stale n ((s.zone n).takeReading r)
  (s1, encAmbient s1.grid (s1.zone n) r)

/-- A reading within the ranges of conditions 3 and 4 of R106. -/
def Reading.inRange (r : Reading) : Bool :=
  decide (-400 ≤ r.temp) && decide (r.temp ≤ 2500) && decide (0 ≤ r.hum) && decide (r.hum ≤ 1000)

/-- The Ambient Monitor takes AMBIENT (R106). -/
def ownAmbient (zone : Byte) (temp hum : Half) : Owner := fun s =>
  let n := zone.toNat
  let r : Reading := { temp := temp.toInt, hum := hum.toNat }
  if Config.zoneCount ≤ n then (s.raiseFault .unknownZone .ambient none none none, [stBadField])
  else if !(s.zone n).cfg.active then (s.raiseFault .unknownZone .ambient none none (some n), [stBadField])
  else if !r.inRange then (s.raiseFault .ambientRange .ambient none none (some n), [stBadField])
  else validReading n r s

/-- AMBIENT (R106). -/
def execAmbient (l : Link) (tag : Byte) (zone : Byte) (temp hum : Half) (s : State) : Result :=
  serve l (.ambient l tag zone temp hum) (ownAmbient zone temp hum) s

end Sys2Proof.Machine
end

