-- ==== Sys2Proof/Machine/Time.lean ====
section
/-! DEFINITION. Minute events, key events, the ends of countdowns, drains, and the seconds of claims. -/

namespace Sys2Proof.Machine

/-- The minute count and the clock advance; both wrap (R35, R188, R194). -/
def State.advanceClock (s : State) : State :=
  { s with minuteCount := s.minuteCount + 1, clock := s.clock.map fun c => c + 1 }

/-- A minute event: in RUN each active zone's own minute event (R35), over which the operation that has the store may
hold it (R36, R43; log entry 33); in RETAIN, and while RESETn is asserted, one more missed minute (R194, R196); nothing
in OFF. -/
def State.minute (s : State) : State :=
  if s.power = .off then s
  else if s.running then
    { s.advanceClock with zones := s.zones.map Zone.minute, heldOver := s.arbitrate.overMinute }
  else { s.advanceClock with missed := min (s.missed + 1) Config.minutesMax }

/-- MINUTE_EVENT (R35). -/
def execMinuteEvent (s : State) : Result := .next s.takeDue.minute

/-- KEY_EVENT (R40): a due head is the pending key event and the request for a drain grant; both are formed from the
lists and integrals, so nothing is stored (log entry 5). -/
def execKeyEvent (_zone : Fin 64) (s : State) : Result := .next s.takeDue

/-- STALENESS_EXPIRY (R109): the zone's expiry, when its countdown has reached 0. -/
def execStalenessExpiry (zone : Fin 64) (s : State) : Result :=
  .next (if s.running then s.takeExpiry zone.val else s)

/-- DOOR_GRACE_REACHED (R115): the zone's onset of door-degradation, when its open minutes have reached the grace. -/
def execDoorGraceReached (zone : Fin 64) (s : State) : Result :=
  .next (if s.running then s.takeGrace zone.val else s)

/-- Settle the carrier the drain grant takes (R41, R42). -/
def State.drain (s : State) : State :=
  match s.drainSlot with
  | none => s
  | some slot => (s.grantDrain.settleStamped slot).freeStore

/-- DRAIN (R41): one carrier, when the arbiter grants the drain. -/
def execDrain (s : State) : Result :=
  let s1 := s.takeDue
  .next (if s1.arbitrate = .drain then s1.drain else s1)

/-- Every claim's remaining seconds fall by 1 (R153). -/
def State.countSecond (s : State) : State :=
  { s with claims := s.claims.map fun c => { c with seconds := c.seconds - 1 } }

/-- CLAIM_SECOND (R153): counted while the part is in RUN. -/
def execClaimSecond (s : State) : Result :=
  let s1 := s.takeDue
  .next (if s1.running then s1.countSecond else s1)

/-- A claim on the item that has run out lapses. -/
def State.lapseItem (s : State) (it : Item) : State :=
  match s.claimOf it with
  | none => s
  | some c => if c.lapseDue then s.lapse c else s

/-- CLAIM_LAPSED (R153): the claim on the item, when its remaining seconds have reached 0. -/
def execClaimLapsed (item : Item) (s : State) : Result :=
  .next (if s.running then s.lapseItem item else s)

end Sys2Proof.Machine
end

