-- ==== Sys2Proof/Machine/Unit.lean ====
section
/-! DEFINITION. STATUS, SETCLOCK, SETUNIT, ERASE, QUIESCE and RESUME (chapters 7 and 11). -/

namespace Sys2Proof.Machine

/-- The STATUS reply (R186, R187). -/
def State.encStatus (s : State) (l : Link) : List Byte :=
  [stDone, startCode s.lastStart, quiesceCode s.quiesce] ++ opt encClock s.clock ++ u32 s.minuteCount.toNat ++
    u16 s.freeSlots ++ u16 s.freeNumbers ++ u8 s.batches.length ++ u8 s.alerts.length ++ yes s.overflow ++
    [arbiterCode s.settings.arbiterMode, orderCode s.settings.alertOrder] ++ u8 (s.claimsHeld .host) ++
    u8 (s.claimsHeld .floor) ++ [s.captureCode] ++ yes (s.link l).badFrame ++ yes (s.link l).overrun

/-- Both flags of a link become clear (R187). -/
def State.clearFlags (s : State) (l : Link) : State :=
  s.setLink l { s.link l with badFrame := false, overrun := false }

/-- The Frame Engine answers STATUS (R187). -/
def ownStatus (l : Link) : Owner := fun s => (s.clearFlags l, s.encStatus l)

/-- STATUS (R187). -/
def execStatus (l : Link) (tag : Byte) (s : State) : Result := serve l (.status l tag) (ownStatus l) s

/-- The Time Base takes SETCLOCK (R188). -/
def ownSetClock (clock : Word) : Owner := fun s => ({ s with clock := some clock }, stDone :: opt encClock s.clock)

/-- SETCLOCK (R188). -/
def execSetClock (l : Link) (tag : Byte) (clock : Word) (s : State) : Result :=
  serve l (.setClock l tag clock) (ownSetClock clock) s

/-- The settings as a SETUNIT reply carries them, in the order of the request (R186, R189). -/
def encSettings (u : UnitSettings) : List Byte :=
  [arbiterCode u.arbiterMode, orderCode u.alertOrder] ++ u8 u.hostLimit ++ u8 u.floorLimit ++ u8 u.staleRate ++
    yes u.watchBlock ++ [u.inversion]

/-- A change of arbiter mode returns the port-grant count to 0 and holds the waiting requests anew (R144). -/
def State.applyArbiterMode (old : UnitSettings) (s : State) : State :=
  if old.arbiterMode = s.settings.arbiterMode then s else { s with portCount := 0, owed := [] }

/-- Recompute every active zone that is stale (R63). -/
def State.recomputeStale (s : State) : State :=
  { s with zones := s.zones.map fun z => if z.cfg.active && z.stale then s.recompute z else z }

/-- A change of the stale rate recomputes every stale active zone (R63). -/
def State.applyStaleRate (old : UnitSettings) (s : State) : State :=
  if old.staleRate = s.settings.staleRate then s else s.recomputeStale

/-- Each line whose inversion changed takes an opening or a closing (R112): the lines from 0 to 7, and the zones in
ascending order within each line, which is the model's choice (log entry 21). -/
def State.applyInversion (old : UnitSettings) (s : State) : State :=
  (List.range 8).foldl
    (fun s n =>
      if old.inversion.getLsbD n = s.settings.inversion.getLsbD n then s else s.deliverDoor n (s.lineOpen n))
    s

/-- The owners take SETUNIT (R189). -/
def ownSetUnit (f : UnitFields) : Owner := fun s =>
  if s.quiesce ≠ .active then (s, [stQuiesced])
  else
    let old := s.settings
    let s1 := { s with settings := settingsOf f }
    (((s1.applyArbiterMode old).applyStaleRate old).applyInversion old, stDone :: encSettings (settingsOf f))

/-- SETUNIT (R189). -/
def execSetUnit (l : Link) (tag : Byte) (fields : UnitFields) (s : State) : Result :=
  serve l (.setUnit l tag fields) (ownSetUnit fields) s

/-- A zone emptied by ERASE (R49, R140). -/
def Zone.erased (z : Zone) : Zone :=
  { z with
    eList := []
    pList := []
    residents := 0
    counts := { fresh := 0, warned := 0, expired := 0, spent := 0 }
    containers := 0
    evacuating := false }

/-- An accepted ERASE (R140). -/
def State.erase (s : State) : State :=
  { s with
    carriers := []
    containers := []
    directory := []
    zones := s.zones.map Zone.erased
    classes := s.classes.map fun c => { c with inUse := 0, revisions := 0 }
    claims := []
    alerts := []
    overflow := false }

/-- The Batch Unit takes ERASE (R140). -/
def ownErase : Owner := fun s =>
  if s.quiesce ≠ .quiesced then (s, [stState])
  else if s.batches ≠ [] then (s, stPending :: u8 s.batches.length)
  else (s.erase, [stDone])

/-- ERASE (R140). -/
def execErase (l : Link) (tag : Byte) (s : State) : Result := serve l (.erase l tag) ownErase s

/-- A QUIESCE reply of DONE: the state after the request and the number of records (R137). -/
def State.quiesceDone (s : State) : List Byte := [stDone, quiesceCode s.quiesce] ++ u8 s.batches.length

/-- A QUIESCE reply of PENDING: the batch count, then the state (R137, 11.5). -/
def State.quiescePending (s : State) : List Byte := [stPending] ++ u8 s.batches.length ++ [quiesceCode s.quiesce]

/-- The Batch Unit takes QUIESCE IMMEDIATE (R137). -/
def ownQuiesceImmediate : Owner := fun s =>
  let s1 :=
    match s.quiesce with
    | .active => { s with quiesce := if s.batches = [] then .quiesced else .quiescing }
    | _ => s
  (s1, s1.quiesceDone)

/-- QUIESCE IMMEDIATE (R137). -/
def execQuiesceImmediate (l : Link) (tag : Byte) (s : State) : Result :=
  serve l (.quiesceImmediate l tag) ownQuiesceImmediate s

/-- The Batch Unit takes QUIESCE CONDITIONAL (R137). -/
def ownQuiesceConditional : Owner := fun s =>
  if s.batches = [] ∧ s.quiesce ≠ .quiescing then
    let s1 := { s with quiesce := .quiesced }
    (s1, s1.quiesceDone)
  else (s, s.quiescePending)

/-- QUIESCE CONDITIONAL (R137). -/
def execQuiesceConditional (l : Link) (tag : Byte) (s : State) : Result :=
  serve l (.quiesceConditional l tag) ownQuiesceConditional s

/-- The Batch Unit takes RESUME (R138). -/
def ownResume : Owner := fun s =>
  if s.quiesce = .active then (s, [stState]) else ({ s with quiesce := .active }, [stDone])

/-- RESUME (R138). -/
def execResume (l : Link) (tag : Byte) (s : State) : Result := serve l (.resume l tag) ownResume s

end Sys2Proof.Machine
end

