-- ==== Sys2Proof/Machine/Watch.lean ====
section
/-! DEFINITION. WATCH, CAPREAD and CAPCLEAR (chapter 9), and ALERTS (chapter 10). -/

namespace Sys2Proof.Machine

/-- DONE to a WATCH or CAPCLEAR: the watch's state and settings (R163). R162 names only the watch's state for CAPCLEAR:
that it carries the settings too is the model's choice (log entry 35). -/
def State.watchDone (s : State) : List Byte := stDone :: s.encWatch

/-- The Capture Unit takes WATCH SET (R163). -/
def ownWatchSet (base : Half) (k mask : Byte) (block : Option Byte) : Owner := fun s =>
  let s1 :=
    { s with
      watch :=
        { s.watch with
          base := base.toNat
          k := k.toNat
          mask := mask.truncate 3
          block := (block.map flagOf).getD s.settings.watchBlock } }
  (s1, s1.watchDone)

/-- WATCH SET (R163). -/
def execWatchSet (l : Link) (tag : Byte) (base : Half) (k mask : Byte) (block : Option Byte) (s : State) : Result :=
  serve l (.watchSet l tag base k mask block) (ownWatchSet base k mask block) s

/-- The Capture Unit takes WATCH ARM (R163). -/
def ownWatchArm : Owner := fun s =>
  if s.heldMatch ∨ s.watch.mask = 0 then (s, [stState])
  else
    let s1 := { s with watch := { s.watch with armed := true } }
    (s1, s1.watchDone)

/-- WATCH ARM (R163). -/
def execWatchArm (l : Link) (tag : Byte) (s : State) : Result := serve l (.watchArm l tag) ownWatchArm s

/-- The Capture Unit takes WATCH DISARM (R163). -/
def ownWatchDisarm : Owner := fun s =>
  let s1 := { s with watch := { s.watch with armed := false } }
  (s1, s1.watchDone)

/-- WATCH DISARM (R163). -/
def execWatchDisarm (l : Link) (tag : Byte) (s : State) : Result := serve l (.watchDisarm l tag) ownWatchDisarm s

/-- The held fields of a record (R161). The outcome, a field of WATCH_MATCH only, takes no presence byte, which is the
model's choice (log entry 16). -/
def encCapture (r : CaptureRec) : List Byte :=
  [captureKindCode r.kind, captureSourceCode r.source] ++ opt encLabel r.label ++ opt u16 r.loc ++ orNone r.zone ++
    opt encClock r.stamp ++
    (match r.blocked with
      | none => []
      | some b => yes b)

/-- The CAPREAD reply (R161). -/
def State.encCapRead (s : State) : List Byte :=
  [stDone, s.captureCode] ++
    (match s.capture with
      | none => []
      | some r => encCapture r) ++
    yes s.moreFaults ++ s.encWatch

/-- The Capture Unit answers CAPREAD (R161). -/
def ownCapRead : Owner := fun s => (s, s.encCapRead)

/-- CAPREAD (R161). -/
def execCapRead (l : Link) (tag : Byte) (s : State) : Result := serve l (.capRead l tag) ownCapRead s

/-- The Capture Unit takes CAPCLEAR (R162). -/
def ownCapClear : Owner := fun s =>
  let s1 := { s with capture := none, moreFaults := false }
  (s1, s1.watchDone)

/-- CAPCLEAR (R162). -/
def execCapClear (l : Link) (tag : Byte) (s : State) : Result := serve l (.capClear l tag) ownCapClear s

/-! ALERTS -/

/-- The entries of one rank, oldest first. -/
def ofRank (r : Nat) (as : List Alert) : List Alert := as.filter fun a => a.kind.rank = r

/-- The entries in the order the policy selects them (R177). -/
def alertSelection (o : AlertOrder) (as : List Alert) : List Alert :=
  match o with
  | .age => as
  | .rank => ofRank 3 as ++ ofRank 2 as ++ ofRank 1 as

/-- Leave out the first `n` entries of a rank. -/
def dropRank (r : Nat) : Nat → List Alert → List Alert
  | 0, as => as
  | _, [] => []
  | n + 1, a :: as => if a.kind.rank = r then dropRank r n as else a :: dropRank r (n + 1) as

/-- The entries left when the first `n` of the selection have gone, in age order (R175, R177). -/
def alertsLeft (o : AlertOrder) (n : Nat) (as : List Alert) : List Alert :=
  match o with
  | .age => as.drop n
  | .rank =>
    let n3 := min n (ofRank 3 as).length
    let n2 := min (n - n3) (ofRank 2 as).length
    dropRank 3 n3 (dropRank 2 n2 (dropRank 1 (n - n3 - n2) as))

/-- The ALERTS reply with `n` entries (R175). -/
def State.encAlerts (s : State) (n : Nat) : List Byte :=
  let sel := (alertSelection s.settings.alertOrder s.alerts).take n
  [stDone] ++ yes s.overflow ++ u8 sel.length ++ u8 (s.alerts.length - sel.length) ++ encList (sel.map encAlert)

/-- How many entries an ALERTS of a maximum returns (R175, R184). -/
def State.alertsCount (s : State) (maximum : Nat) : Nat :=
  fitCount (fun n => 2 + (s.encAlerts n).length) (min maximum s.alerts.length)

/-- The Alert Queue takes ALERTS (R175). -/
def ownAlerts (maximum : Option Byte) : Owner := fun s =>
  let n := s.alertsCount (maximum.getD 8).toNat
  ({ s with alerts := alertsLeft s.settings.alertOrder n s.alerts, overflow := false }, s.encAlerts n)

/-- ALERTS (R175). -/
def execAlerts (l : Link) (tag : Byte) (maximum : Option Byte) (s : State) : Result :=
  serve l (.alerts l tag maximum) (ownAlerts maximum) s

end Sys2Proof.Machine
end

