-- ==== Sys2Proof/Machine/Dispatch.lean ====
section
/-! DEFINITION. The meaning of each command: one arm per row of spec/opcode_table.json. -/

namespace Sys2Proof.Machine

def exec (i : Instr) (s : State) : Host.Outcome State Fault Refusal :=
  match i with
  | .minuteEvent => Sys2Proof.Machine.execMinuteEvent s
  | .keyEvent zone => Sys2Proof.Machine.execKeyEvent zone s
  | .stalenessExpiry zone => Sys2Proof.Machine.execStalenessExpiry zone s
  | .doorGraceReached zone => Sys2Proof.Machine.execDoorGraceReached zone s
  | .drain => Sys2Proof.Machine.execDrain s
  | .goodFrame link body check => Sys2Proof.Machine.execGoodFrame link body check s
  | .badFrame link cause => Sys2Proof.Machine.execBadFrame link cause s
  | .frameSilence link received => Sys2Proof.Machine.execFrameSilence link received s
  | .replySent link => Sys2Proof.Machine.execReplySent link s
  | .status link tag => Sys2Proof.Machine.execStatus link tag s
  | .setClock link tag clock => Sys2Proof.Machine.execSetClock link tag clock s
  | .setUnit link tag fields => Sys2Proof.Machine.execSetUnit link tag fields s
  | .erase link tag => Sys2Proof.Machine.execErase link tag s
  | .quiesceImmediate link tag => Sys2Proof.Machine.execQuiesceImmediate link tag s
  | .quiesceConditional link tag => Sys2Proof.Machine.execQuiesceConditional link tag s
  | .resume link tag => Sys2Proof.Machine.execResume link tag s
  | .enrolCarrier link tag label cls minutes packed bakeCount loc => Sys2Proof.Machine.execEnrolCarrier link tag label cls minutes packed bakeCount loc s
  | .enrolContainer link tag label packed loc => Sys2Proof.Machine.execEnrolContainer link tag label packed loc s
  | .openItem link tag label stamp loc => Sys2Proof.Machine.execOpen link tag label stamp loc s
  | .place link tag label stamp loc => Sys2Proof.Machine.execPlace link tag label stamp loc s
  | .pack link tag label stamp => Sys2Proof.Machine.execPack link tag label stamp s
  | .nest link tag label target stamp => Sys2Proof.Machine.execNest link tag label target stamp s
  | .unnest link tag label stamp => Sys2Proof.Machine.execUnnest link tag label stamp s
  | .retire link tag label stamp => Sys2Proof.Machine.execRetire link tag label stamp s
  | .hold link tag label reason stamp => Sys2Proof.Machine.execHold link tag label reason stamp s
  | .unhold link tag label stamp => Sys2Proof.Machine.execUnhold link tag label stamp s
  | .evacuate link tag zone loc => Sys2Proof.Machine.execEvacuate link tag zone loc s
  | .lookup link tag label start => Sys2Proof.Machine.execLookup link tag label start s
  | .zoneInfo link tag zone => Sys2Proof.Machine.execZoneInfo link tag zone s
  | .residents link tag zone start => Sys2Proof.Machine.execResidents link tag zone start s
  | .batchInfo link tag start => Sys2Proof.Machine.execBatchInfo link tag start s
  | .classInfo link tag cls => Sys2Proof.Machine.execClassInfo link tag cls s
  | .setZone link tag fields => Sys2Proof.Machine.execSetZone link tag fields s
  | .setClassDefine link tag cls values => Sys2Proof.Machine.execSetClassDefine link tag cls values s
  | .setClassRevise link tag cls values => Sys2Proof.Machine.execSetClassRevise link tag cls values s
  | .setClassUndefine link tag cls => Sys2Proof.Machine.execSetClassUndefine link tag cls s
  | .setGrid link tag fields => Sys2Proof.Machine.execSetGrid link tag fields s
  | .ambient link tag zone temp hum => Sys2Proof.Machine.execAmbient link tag zone temp hum s
  | .claim link tag label => Sys2Proof.Machine.execClaim link tag label s
  | .release link tag label => Sys2Proof.Machine.execRelease link tag label s
  | .watchSet link tag base k mask block => Sys2Proof.Machine.execWatchSet link tag base k mask block s
  | .watchArm link tag => Sys2Proof.Machine.execWatchArm link tag s
  | .watchDisarm link tag => Sys2Proof.Machine.execWatchDisarm link tag s
  | .capRead link tag => Sys2Proof.Machine.execCapRead link tag s
  | .capClear link tag => Sys2Proof.Machine.execCapClear link tag s
  | .alerts link tag maximum => Sys2Proof.Machine.execAlerts link tag maximum s
  | .moveCarrierStep => Sys2Proof.Machine.execMoveCarrierStep s
  | .moveFinalStep => Sys2Proof.Machine.execMoveFinalStep s
  | .packUnpackCarrierStep => Sys2Proof.Machine.execPackUnpackCarrierStep s
  | .packUnpackFinalStep => Sys2Proof.Machine.execPackUnpackFinalStep s
  | .reparentCarrierStep => Sys2Proof.Machine.execReparentCarrierStep s
  | .reparentFinalStep => Sys2Proof.Machine.execReparentFinalStep s
  | .classRevisionStep => Sys2Proof.Machine.execClassRevisionStep s
  | .doorOpening line => Sys2Proof.Machine.execDoorOpening line s
  | .doorClosing line => Sys2Proof.Machine.execDoorClosing line s
  | .claimSecond => Sys2Proof.Machine.execClaimSecond s
  | .claimLapsed item => Sys2Proof.Machine.execClaimLapsed item s
  | .powerFailWarning => Sys2Proof.Machine.execPowerFailWarning s
  | .retainEntry vback => Sys2Proof.Machine.execRetainEntry vback s
  | .mainPowerLoss vback => Sys2Proof.Machine.execMainPowerLoss vback s
  | .backupLoss => Sys2Proof.Machine.execBackupLoss s
  | .warmStart pins => Sys2Proof.Machine.execWarmStart pins s
  | .coldStart pins => Sys2Proof.Machine.execColdStart pins s
  | .resetAsserted => Sys2Proof.Machine.execResetAsserted s
  | .resetReleased pins => Sys2Proof.Machine.execResetReleased pins s

end Sys2Proof.Machine
end

