-- ==== Sys2Proof/Machine/Step.lean ====
section
/-! DEFINITION. One step of the block: the command at the front of the queue, or an idle eighth of a second. -/

namespace Sys2Proof.Machine

/-- An eighth of a second of the pattern clock, while the part runs (R120; log entry 6). -/
def State.tick (s : State) : State :=
  if s.running then { s with patternPhase := (s.patternPhase + 1) % Config.patternPhases } else s

/-- An empty queue: the next character reaches its receiver, or, with none on its way, an eighth of a second goes by.
Events that a counter has made due come first, as before a command (log entries 4, 6 and 23). -/
def State.idle (s : State) : State :=
  match s.line with
  | [] => s.takeDue.tick
  | (l, c) :: rest => ({ s with line := rest } : State).takeDue.takeCharacter l c

/-- One step. -/
def step (s : State) : Host.Outcome State Fault Refusal :=
  match s.pending with
  | [] => .next s.idle
  | c :: rest => exec c { s with pending := rest }

/-- The command a table word spells, put at the front of the queue. -/
def State.withFetchWord (s : State) (nbits w : Nat) : State :=
  match decodeTableWord nbits w with
  | none => s
  | some c => { s with pending := c :: s.pending }

end Sys2Proof.Machine
end

