-- ==== Sys2Proof/Safety.lean ====
section
/-! DEFINITION. The terms the statements use: when a command may happen, what a served request leaves, and the
invariants of a run. -/

namespace Sys2Proof.Machine

/-! When a command may happen -/

/-- No counter has made an event due that no command has taken. -/
def State.quiet (s : State) : Bool :=
  ((List.range Config.zoneCount).all fun n => !(s.zone n).expiryDue && !(s.zone n).graceDue) &&
    s.claims.all fun c => !c.lapseDue

/-- Running, with no event outstanding. -/
def State.calm (s : State) : Bool := s.running && s.quiet

/-- Receiving, with no event outstanding. -/
def State.ready (s : State) : Bool := s.receiving && s.quiet

/-- The state with a request in a link's hand. -/
def State.holding (s : State) (l : Link) (c : Instr) : State := s.setHand l (some (.waiting c))

/-- A request reaches an idle link and passes the Frame Engine's checks (R183). -/
def State.admits (s : State) (l : Link) (c : Instr) : Bool :=
  s.ready && (s.link l).free && permitted l (kindCode c) && fieldsOk c

/-- A request that does not wait for the store reaches its owner. -/
def State.takes (s : State) (l : Link) (c : Instr) : Bool := s.admits l c && !s.waitsForStore c

/-- A request that waits for the store is granted it at once (R142). -/
def State.grants (s : State) (l : Link) (c : Instr) : Bool :=
  s.admits l c && s.waitsForStore c && (s.holding l c).awards (.port l)

/-- The state an owner finds under its grant. -/
def State.granted (s : State) (l : Link) (c : Instr) : State := (s.holding l c).grantPort l

/-- A reply takes its request's place in hand (R184). -/
def State.replies (s : State) (l : Link) (kind tag : Byte) (result : List Byte) : State :=
  s.setHand l (some (.replying ((kind + 0x80) :: tag :: result)))

/-- A reply at the end of a grant. -/
def State.ends (s : State) (l : Link) (kind tag : Byte) (result : List Byte) : State :=
  (s.replies l kind tag result).freeStore

/-- Steps 3 to 7 of the order of checks pass for an item (R68). -/
def State.passes (s : State) (l : Link) (label : Label) (stamp : Nat) (it : Item) : Prop :=
  s.find label = some it ∧ s.inTransit it = false ∧ s.otherClaim l it = none ∧
    (stamp = 0 ∨ stamp = s.stampOf it) ∧ s.quiesce = .active

/-- The state step 8 begins with: under the grant, the link's own claim reloaded (R151). -/
def State.stepEight (s : State) (l : Link) (c : Instr) (it : Item) : State := (s.granted l c).reloadClaim l it

/-- The label and expected stamp of the rows that take one item through the whole order of checks (R68). -/
def itemOperands : Instr → Option (Label × Nat)
  | .openItem _ _ label stamp _ => some (label, stampOperand stamp)
  | .place _ _ label stamp _ => some (label, stamp.toNat)
  | .pack _ _ label stamp => some (label, stampOperand stamp)
  | .unnest _ _ label stamp => some (label, stampOperand stamp)
  | .retire _ _ label stamp => some (label, stampOperand stamp)
  | .hold _ _ label _ stamp => some (label, stampOperand stamp)
  | .unhold _ _ label stamp => some (label, stampOperand stamp)
  | _ => none

/-- A step of a kind is granted to a batch, with no event outstanding (R142). -/
def State.stepsNow (s : State) (k : StepKind) (b : Batch) : Prop := s.quiet = true ∧ s.grantedStep k = some b

/-- A carrier passes the tests of a MOVE or EVACUATE step into a zone at a location (R129). -/
def State.stepPasses (s : State) (t loc : Nat) (k : Carrier) : Prop :=
  ((s.zone t).cfg.gated = false ∨ (k.life ≠ .expired ∧ k.life ≠ .spent ∧ k.hold = 0)) ∧
    ((s.zone t).cfg.kind ≠ .oven ∨ k.life ≠ .spent) ∧ (s.watchMatches .batch loc = false ∨ s.watch.block = false)

/-- The change stamp after a settle on its own (R19). -/
def stampAfterSettle (c k : Carrier) : Nat :=
  if c.life ≠ k.life ∨ c.bakeCount ≠ k.bakeCount then nextStamp c.stamp else c.stamp

/-- A refusal at step 8 of a carrier whose settle took it from `c` to `k`: the settle stands with its own advance of the
stamp, and the reply carries stamp and life status (R68, R70). -/
def State.refusesAtEight (u : State) (l : Link) (kind tag : Byte) (n : Nat) (c k : Carrier) (st : Byte)
    (extra : List Byte) : State :=
  (u.bumpCarrierIf n (decide (c.life ≠ k.life) || decide (c.bakeCount ≠ k.bakeCount))).ends l kind tag
    (st :: u16 (stampAfterSettle c k) ++ [lifeCode k.life] ++ extra)

/-- The residence change of carrier `n`, whose record was `c`, with the BAKE_REFUSED that follows it when a new residence
is BAKE and no bake is left to the record `d` it leaves, or when `spentToo` and the carrier is SPENT (R76, R132; log
entry 14). -/
def State.moveAlerts (g : State) (n : Nat) (c : Carrier) (r : Residence) (spentToo : Bool) (d : Carrier) : State :=
  if (c.zone ≠ r.zone ∨ c.mode ≠ r.mode) ∧ d.mode = .bake ∧
      ((g.classValues d.cls).bakeBudget ≤ d.bakeCount ∨ (spentToo = true ∧ d.life = .spent)) then
    (g.changeResidence n r).1.raise .bakeRefused (.item (.carrier n) (g.labelOf (.carrier n))) none
  else (g.changeResidence n r).1

/-- `t` holds what moving carrier `n`, whose record was `c`, to a residence makes of `g`: the record `d` is that of the
residence change with the stamp advanced once, the zones and alerts are the residence change's with any BAKE_REFUSED (R4,
R76, R132, R156), and the capture record, the watch and the claims are those of `g`. -/
def State.carrierMoved (g t : State) (n : Nat) (c : Carrier) (r : Residence) (spentToo : Bool) (d : Carrier) : Prop :=
  some d = ((g.changeResidence n r).1.carrier n).map (fun e => { e with stamp := nextStamp c.stamp }) ∧
    t.zones = (g.changeResidence n r).1.zones ∧
    t.alerts = (g.moveAlerts n c r spentToo d).alerts ∧ t.overflow = (g.moveAlerts n c r spentToo d).overflow ∧
    t.capture = g.capture ∧ t.moreFaults = g.moreFaults ∧ t.watch = g.watch ∧ t.claims = g.claims

/-- The alert of an active zone whose mode its door changes (R111). -/
def State.doorAlert (n : Nat) (old new : Zone) (s : State) : State :=
  match old.mode, new.mode with
  | .normal, .degraded => s.raise .zoneDegraded (.zone n) (some (.cause .door))
  | .degraded, .normal => s.raise .zoneRestored (.zone n) none
  | _, _ => s

/-- The alerts of a door line's change, the zones that follow it in ascending order (R111; log entry 21): `before` gives
each zone as it stood, `after` as the change leaves it. -/
def State.doorAlerts (line : Nat) (before after : Nat → Zone) (s : State) : State :=
  (List.range Config.zoneCount).foldl
    (fun w n => if (before n).follows line then w.doorAlert n (before n) (after n) else w) s

/-! What no request and no step of the engines touches -/

/-- Fields that only the Time Base, the Power Controller and the unit requests write. -/
structure Fixed where
  pending : List Instr
  line : List (Link × Character)
  power : Power
  windDown : Bool
  resetAsserted : Bool
  checkWord : Bool
  lastStart : StartKind
  missed : Nat
  minuteCount : Word
  patternPhase : Nat
  doorLevel : Byte
  deriving DecidableEq, Repr

/-- The fixed fields of a state. -/
def State.fixed (s : State) : Fixed where
  pending := s.pending
  line := s.line
  power := s.power
  windDown := s.windDown
  resetAsserted := s.resetAsserted
  checkWord := s.checkWord
  lastStart := s.lastStart
  missed := s.missed
  minuteCount := s.minuteCount
  patternPhase := s.patternPhase
  doorLevel := s.doorLevel

/-- `t` differs from `s` at most in carriers, zones' lists and counts, alerts, claims, the capture record and watch, the
links and the arbiter's own fields: what a request that moves one carrier may write. -/
def State.movesOnly (s t : State) : Prop :=
  t =
    { s with
      carriers := t.carriers
      zones := t.zones
      alerts := t.alerts
      overflow := t.overflow
      capture := t.capture
      moreFaults := t.moreFaults
      watch := t.watch
      claims := t.claims
      hostLink := t.hostLink
      floorLink := t.floorLink
      lastServed := t.lastServed
      portCount := t.portCount
      owed := t.owed
      heldOver := t.heldOver }

/-- `t` differs from `s` at most in what `movesOnly` names, the containers, and the batch queue. -/
def State.containsOnly (s t : State) : Prop :=
  State.movesOnly { s with containers := t.containers, batches := t.batches, nextBatch := t.nextBatch } t

/-- The configuration, integrals, readings and rates of every zone are the same: only lists and counts may differ. -/
def State.airKept (s t : State) : Prop :=
  ∀ n,
    t.zone n =
      { s.zone n with
        eList := (t.zone n).eList
        pList := (t.zone n).pList
        residents := (t.zone n).residents
        counts := (t.zone n).counts
        containers := (t.zone n).containers
        evacuating := (t.zone n).evacuating }

/-! The retained domain (R191) -/

/-- The retained domain, less the missed-minute count and the check word. -/
structure Retained where
  carriers : List (Nat × Carrier)
  containers : List (Nat × Container)
  directory : List (Label × Item)
  zones : List Zone
  classes : List ClassRec
  grid : RateGrid
  batches : List Batch
  quiesce : Quiesce
  nextBatch : Nat
  alerts : List Alert
  overflow : Bool
  settings : UnitSettings
  minuteCount : Word
  clock : Option Word
  deriving DecidableEq, Repr

/-- The retained domain of a state. -/
def State.retained (s : State) : Retained where
  carriers := s.carriers
  containers := s.containers
  directory := s.directory
  zones := s.zones
  classes := s.classes
  grid := s.grid
  batches := s.batches
  quiesce := s.quiesce
  nextBatch := s.nextBatch
  alerts := s.alerts
  overflow := s.overflow
  settings := s.settings
  minuteCount := s.minuteCount
  clock := s.clock

/-- An active zone after a start that missed `m` minutes (R195), in `t` whose door lines have been sampled. -/
def Zone.restarted (t : State) (m : Nat) (z z' : Zone) : Prop :=
  z'.e = z.e + m * z.cfg.outageRate ∧ z'.p = z.p ∧ z'.stale = true ∧ z'.countdown = 0 ∧ z'.mode = .degraded ∧
    z'.eRate = t.settings.staleRate ∧ z'.pRate = 0 ∧ z'.doorOpen = t.doorOf z.cfg.doorLine ∧ z'.openMinutes = 0 ∧
    z'.doorDegraded = (z'.doorOpen && decide (z.cfg.doorGrace = 0)) ∧
    z'.doorEvents = z.doorEvents ∧ z'.cfg = z.cfg ∧ z'.reading = z.reading ∧ z'.eList = z.eList ∧
    z'.pList = z.pList ∧ z'.residents = z.residents ∧ z'.counts = z.counts ∧ z'.containers = z.containers ∧
    z'.evacuating = z.evacuating

/-- What a warm start, or the release of RESETn, leaves (R195, R196): the part running (log entry 37), the door fields of
an inactive zone cleared (log entry 32). -/
structure Restarted (s t : State) (kind : StartKind) (pins : StartPins) : Prop where
  runs : t.running = true ∧ t.windDown = false
  kept : { t.retained with zones := s.zones, alerts := s.alerts, overflow := s.overflow } = s.retained
  active : ∀ n, (s.zone n).cfg.active = true → Zone.restarted t s.missed (s.zone n) (t.zone n)
  inactive : ∀ n, (s.zone n).cfg.active = false →
    t.zone n = { s.zone n with doorOpen := false, openMinutes := 0, doorDegraded := false }
  links : t.hostLink = LinkState.start pins.hostStraps ∧ t.floorLink = LinkState.start pins.floorStraps
  doors : t.doorLevel = pins.doors
  volatile : t.claims = [] ∧ t.capture = none ∧ t.moreFaults = false ∧ t.watch = Watch.cold ∧ t.patternPhase = 0 ∧
    t.lastServed = .floor ∧ t.portCount = 0 ∧ t.owed = [] ∧ t.heldOver = .none
  outage : t.alerts =
    if s.missed = 0 then s.alerts else (s.raise .outage .powerController (some (.minutes s.missed))).alerts
  recorded : t.missed = 0 ∧ t.lastStart = kind ∧ t.checkWord = s.checkWord

/-! Invariants of a run -/

/-- The bounds of the tables and queues (R26, R50, R124, R147, R168, R182). -/
def State.bounded (s : State) : Prop :=
  s.zones.length = Config.zoneCount ∧ s.classes.length = Config.classCount ∧
    s.batches.length ≤ Config.batchLimit ∧ s.claims.length ≤ Config.claimTableSize ∧
    s.alerts.length ≤ Config.alertLimit ∧ s.hostLink.buffer.length ≤ Config.bufferLimit ∧
    s.floorLink.buffer.length ≤ Config.bufferLimit

/-- Base exposure equals carried credits plus closed segments plus the open segment (R23). -/
def Carrier.conserved (c : Carrier) : Prop :=
  (c.base : Int) = c.carried + (c.closed.map (·.credits)).sum + c.openSeg.credits

/-- Every live carrier's account is conserved, and its closed segments are within their limit (R22, R23). -/
def State.conserved (s : State) : Prop :=
  ∀ e ∈ s.carriers, e.2.conserved ∧ e.2.closed.length ≤ Config.segmentLimit

/-- The Account Store lists each slot and number once, in rising order, and none beyond its table (R1, R88). -/
def State.tabled (s : State) : Prop :=
  tabWf s.carriers = true ∧ tabWf s.containers = true ∧ (∀ e ∈ s.carriers, e.1 < Config.carrierSlots) ∧
    ∀ e ∈ s.containers, e.1 < Config.containerNumbers

/-- Both deadline lists of every zone stand in key order (R37, R39). -/
def State.ordered (s : State) : Prop :=
  ∀ z ∈ s.zones, (z.eList.map (·.key)).Pairwise (· ≤ ·) ∧ (z.pList.map (·.key)).Pairwise (· ≤ ·)

/-- No zone's integrals are lower in `t` (R34). -/
def State.integralsKept (s t : State) : Prop :=
  ∀ n, (s.zone n).e ≤ (t.zone n).e ∧ (s.zone n).p ≤ (t.zone n).p

end Sys2Proof.Machine
end

