-- ==== Sys2Proof/Certificates/Slice0/Obligations.lean ====
section
/-! DEFINITION. The statements about the model. -/

open Sys2Proof Sys2Proof.Machine

/-! The queue -/

/-- A step takes the command at the front of the queue and is that command on the state with the queue's rest. -/
def Obligations.StepRunsFrontCommand : Prop :=
  ∀ (s : State) (c : Instr) (rest : List Instr),
    step { s with pending := c :: rest } = exec c { s with pending := rest }

/-- Every command, in every state, gives a next state and leaves the queue and the lines alone; a request touches nothing
of the Power Controller, the minute count, the pattern clock or the door lines. -/
def Obligations.EveryCommandCompletes : Prop :=
  (∀ (c : Instr) (s : State), ∃ t, exec c s = .next t ∧ t.pending = s.pending ∧ t.line = s.line) ∧
  ∀ (c : Instr) (s t : State), requestOf c ≠ none → exec c s = .next t → t.fixed = s.fixed

/-- A step on an empty queue, events that are due taken first (the model's choice, log entry 4): with no character on a
line, the pattern clock advances by an eighth of a second (the model's choice, log entry 6); else the next character
reaches its receiver while the part receives (the model's choice, log entry 23). A zone's pattern is the first row of
R119 that applies; a line shows the highest pattern among the zones that name it and is driven on for the times of R120
within each period. -/
def Obligations.IdleStepAndLamps : Prop :=
  (∀ s : State, s.pending = [] → s.line = [] → s.running = true →
    step s = .next { s.takeDue with patternPhase := (s.patternPhase + 1) % 16 }) ∧
  (∀ s : State, s.pending = [] → s.line = [] → s.calm = true →
    step s = .next { s with patternPhase := (s.patternPhase + 1) % 16 }) ∧
  (∀ s : State, s.pending = [] → s.line = [] → s.running = false → step s = .next s) ∧
  (∀ (s : State) (l : Link) (c : Character) (rest : List (Link × Character)), s.pending = [] →
    s.line = (l, c) :: rest →
    (s.ready = true → step s = .next (({ s with line := rest } : State).takeByte l c.data)) ∧
    (s.running = false → step s = .next { s with line := rest }) ∧
    (s.calm = true → s.windDown = true → step s = .next { s with line := rest })) ∧
  (∀ z : Zone,
    (z.cfg.active = false → z.pattern = .off) ∧
    (z.cfg.active = true → 0 < z.counts.expired ∨ 0 < z.counts.spent → z.pattern = .fast) ∧
    (z.cfg.active = true → z.counts.expired = 0 → z.counts.spent = 0 →
      (z.mode = .degraded → z.pattern = .pulse) ∧
      (z.mode = .normal → 0 < z.counts.warned → z.pattern = .slow) ∧
      (z.mode = .normal → z.counts.warned = 0 → z.pattern = .steady))) ∧
  (Pattern.off.order < Pattern.steady.order ∧ Pattern.steady.order < Pattern.slow.order ∧
    Pattern.slow.order < Pattern.pulse.order ∧ Pattern.pulse.order < Pattern.fast.order) ∧
  (∀ (s : State) (line : Nat), s.running = false → s.lineLevel line = false) ∧
  (∀ (s : State) (line : Nat), s.running = true →
    s.lineLevel line =
      match s.linePattern line with
      | .fast => decide (s.patternPhase % 4 < 2)
      | .pulse => decide (s.patternPhase % 16 < 1)
      | .slow => decide (s.patternPhase % 16 < 8)
      | .steady => true
      | .off => false) ∧
  (∀ (s : State) (line : Nat) (z : Zone), s.running = true → z ∈ s.zones → z.cfg.indicatorLine = some line →
    z.pattern.order ≤ (s.linePattern line).order) ∧
  ∀ (s : State) (line : Nat), s.running = true → s.linePattern line ≠ .off →
    ∃ z ∈ s.zones, z.cfg.indicatorLine = some line ∧ z.pattern = s.linePattern line

/-! Starts and power (chapter 12) -/

/-- State.reset is what a cold start of an unpowered part gives with every strap and door pin low (the pin levels are the
model's choice, log entry 8). -/
def Obligations.ResetIsAColdStart : Prop :=
  exec (.coldStart { hostStraps := 0, floorStraps := 0, doors := 0 }) State.unpowered = .next State.reset

/-- A cold start, from OFF or from RETAIN without the check word, gives every block its cold values, writes the check
word, and captures BACKUP_LOST with its alert (R197): the links and the door lines as the pins stand (R179, R122), the
Floor Link served last and no port grant counted (R146), the pattern clock at the beginning of its period (R120). Three
points are the model's choice: that the part runs whatever the level of RESETn (log entry 37), and that the fields owed
(log entry 13) and heldOver (log entry 33) are empty. -/
def Obligations.ColdStartValues : Prop :=
  ∀ (s : State) (pins : StartPins), s.power = .off ∨ (s.power = .retain ∧ s.checkWord = false) →
    ∃ t, exec (.coldStart pins) s = .next t ∧ t.power = .run ∧ t.running = true ∧ t.windDown = false ∧
      t.carriers = [] ∧ t.containers = [] ∧ t.directory = [] ∧
      t.zones.length = 64 ∧ (∀ n, (t.zone n).cfg.active = false ∧ (t.zone n).e = 0 ∧ (t.zone n).p = 0 ∧
        t.zone n = Zone.cold) ∧
      t.classes.length = 32 ∧ (∀ n, (t.cls n).values = none ∧ (t.cls n).inUse = 0 ∧ (t.cls n).revisions = 0) ∧
      t.grid = RateGrid.cold ∧ t.batches = [] ∧ t.quiesce = .active ∧ t.nextBatch = 1 ∧ t.settings = UnitSettings.cold ∧
      t.minuteCount = 0 ∧ t.missed = 0 ∧ t.clock = none ∧ t.claims = [] ∧ t.overflow = false ∧
      t.hostLink = LinkState.start pins.hostStraps ∧ t.floorLink = LinkState.start pins.floorStraps ∧
      t.lastServed = .floor ∧ t.portCount = 0 ∧ t.owed = [] ∧ t.heldOver = .none ∧ t.patternPhase = 0 ∧
      t.doorLevel = pins.doors ∧ t.resetAsserted = false ∧ t.pending = s.pending ∧ t.line = s.line ∧
      t.checkWord = true ∧ t.lastStart = .cold ∧ t.moreFaults = false ∧ t.watch = Watch.cold ∧
      t.capture = some
        { kind := .backupLost, source := .power, label := none, loc := none, zone := none, stamp := none, blocked := none } ∧
      t.alerts =
        [{ kind := .capture, subject := .captureUnit, retired := false, stamp := none, count := 1,
           value := some (.captured .backupLost) }] ∧
      t.attn = true

/-- PFWn in RUN: the frames in progress and the buffers lost, the requests in hand that wait for the store discarded, the
claims emptied, no further grant (R193). That the capture record, the watch and the rest of the volatile domain stand
until the entry to RETAIN is the model's choice (log entry 26). -/
def Obligations.PowerFailWarning : Prop :=
  (∀ s : State, s.power = .run → s.windDown = false → (s.running = true → s.quiet = true) →
    exec .powerFailWarning s =
      .next
        { s with
          windDown := true
          claims := []
          hostLink := { s.hostLink with frame := none, buffer := [], hand := s.keepHand s.hostLink.hand }
          floorLink := { s.floorLink with frame := none, buffer := [], hand := s.keepHand s.floorLink.hand } }) ∧
  (∀ (s : State) (c : Instr),
    s.keepHand (some (.waiting c)) = if s.waitsForStore c then none else some (.waiting c)) ∧
  (∀ (s : State) (body : List Byte), s.keepHand (some (.replying body)) = some (.replying body)) ∧
  ∀ s : State, s.windDown = true → s.arbitrate = .none ∧ ∀ g, g ≠ .none → s.awards g = false

/-- The ways out of RUN and RETAIN: entry to RETAIN keeps the retained domain, an unannounced loss makes the next start
cold, and without VBACK the part is off (R191, R192, R193). That the volatile fields are at their cold values in RETAIN
(log entry 26), and that BACKUP_LOSS stands for VBACK falling with VMAIN absent (log entry 36), are the model's choice. -/
def Obligations.PowerIsLost : Prop :=
  (∀ s : State, s.power = .run → s.windDown = true → s.hostLink.hand = none → s.floorLink.hand = none →
    (s.running = true → s.quiet = true) →
    (∃ t, exec (.retainEntry true) s = .next t ∧ t.power = .retain ∧ t.retained = s.retained ∧
      t.checkWord = s.checkWord ∧ t.missed = (if s.resetAsserted then s.missed else 0) ∧ t.claims = [] ∧
      t.capture = none ∧ t.moreFaults = false ∧ t.watch = Watch.cold ∧ t.attn = false ∧
      t.hostLink.frame = none ∧ t.floorLink.frame = none) ∧
    ∃ t, exec (.retainEntry false) s = .next t ∧ t.power = .off) ∧
  (∀ s : State, s.power = .run → s.windDown = false → (s.running = true → s.quiet = true) →
    (∃ t, exec (.mainPowerLoss true) s = .next t ∧ t.power = .retain ∧ t.checkWord = false ∧ t.startsCold = true) ∧
    ∃ t, exec (.mainPowerLoss false) s = .next t ∧ t.power = .off ∧ t.startsCold = true) ∧
  ∀ s : State, s.power = .retain → ∃ t, exec .backupLoss s = .next t ∧ t.power = .off ∧ t.startsCold = true

/-- A warm start and the release of RESETn make the acts of R195 (R196): the outage charge, every active zone stale, the
volatile state empty, OUTAGE with the missed minutes. That the part runs whatever the level of RESETn at a warm start (log
entry 37), and that the door fields of an inactive zone are cleared (log entry 32), are the model's choice. -/
def Obligations.OutageIsCharged : Prop :=
  (∀ (s : State) (pins : StartPins), s.power = .retain → s.checkWord = true →
    ∃ t, exec (.warmStart pins) s = .next t ∧ Restarted s t .warm pins) ∧
  ∀ (s : State) (pins : StartPins), s.power = .run → s.resetAsserted = true → s.windDown = false →
    ∃ t, exec (.resetReleased pins) s = .next t ∧ Restarted s t .reset pins

/-- RESETn asserted in RUN: the frames in progress, the requests in hand, the buffers and the claims are lost, nothing is
granted, ATTN and the lamps are low; during the wind-down it has no effect (R190, R196). -/
def Obligations.ResetIsAsserted : Prop :=
  (∀ s : State, s.ready = true →
    exec .resetAsserted s =
      .next
        { s with
          resetAsserted := true
          missed := 0
          claims := []
          hostLink := { s.hostLink with frame := none, buffer := [], hand := none }
          floorLink := { s.floorLink with frame := none, buffer := [], hand := none } }) ∧
  (∀ s : State, s.power = .run → s.windDown = true → s.quiet = true → exec .resetAsserted s = .next s) ∧
  ∀ s : State, s.resetAsserted = true →
    s.arbitrate = .none ∧ (∀ g, g ≠ .none → s.awards g = false) ∧ s.attn = false ∧
      ∀ line, s.lineLevel line = false

/-- The Label Directory across starts: empty at a cold start and after an accepted ERASE, kept by every other start and
reset (R67). -/
def Obligations.DirectoryAcrossStarts : Prop :=
  (∀ (s : State) (pins : StartPins), s.startsCold = true →
    ∃ t, exec (.coldStart pins) s = .next t ∧ t.directory = []) ∧
  (∀ (s : State) (pins : StartPins), s.power = .retain → s.checkWord = true →
    ∃ t, exec (.warmStart pins) s = .next t ∧ t.directory = s.directory) ∧
  (∀ s : State, ∃ t, exec .resetAsserted s = .next t ∧ t.directory = s.directory) ∧
  (∀ (s : State) (pins : StartPins), ∃ t, exec (.resetReleased pins) s = .next t ∧ t.directory = s.directory) ∧
  (∀ s : State, ∃ t, exec (.retainEntry true) s = .next t ∧ t.directory = s.directory) ∧
  ∀ (s : State) (tag : Byte), s.grants .host (.erase .host tag) = true → s.quiesce = .quiesced → s.batches = [] →
    ∃ t, exec (.erase .host tag) s = .next t ∧ t.directory = [] ∧ t.carriers = [] ∧ t.containers = []

/-! Minutes, seconds and drains (chapters 2, 6, 8) -/

/-- A minute event: in RUN each active zone advances its integrals by its rates and runs its counters; in RETAIN and
under RESETn one minute is missed (R35, R109, R115, R194). The operation the arbiter would grant as it comes, other than
a drain, may hold the store over it (the model's choice, log entry 33). -/
def Obligations.MinuteEvents : Prop :=
  (∀ s : State, s.calm = true →
    exec .minuteEvent s =
      .next
        { s with
          minuteCount := s.minuteCount + 1
          clock := s.clock.map fun c => c + 1
          heldOver := if s.arbitrate = .drain then .none else s.arbitrate
          zones := s.zones.map fun z =>
            if z.cfg.active then
              { z with
                e := z.e + z.eRate
                p := z.p + z.pRate
                countdown := if z.stale then 0 else z.countdown - 1
                openMinutes := if z.doorOpen then min (z.openMinutes + 1) 255 else z.openMinutes }
            else z }) ∧
  ∀ s : State, s.power = .retain ∨ (s.power = .run ∧ s.resetAsserted = true) →
    exec .minuteEvent s =
      .next
        { s with
          minuteCount := s.minuteCount + 1
          clock := s.clock.map fun c => c + 1
          missed := min (s.missed + 1) 4294967295 }

/-- A staleness countdown at 0 makes its zone stale at the stale rate, and open minutes at the grace make it
door-degraded; ZONE_DEGRADED is raised with the cause when the zone was NORMAL (R109, R111, R115). -/
def Obligations.CountersReachTheirEnds : Prop :=
  (∀ (s : State) (n : Fin 64) (z t : _), s.running = true → z = s.zone n.val → z.cfg.active = true → z.stale = false →
    z.countdown = 0 →
    t = s.setZone n.val { z with stale := true, mode := .degraded, eRate := s.settings.staleRate, pRate := 0 } →
    exec (.stalenessExpiry n) s =
      .next (if z.mode = .normal then t.raise .zoneDegraded (.zone n.val) (some (.cause .stale)) else t)) ∧
  ∀ (s : State) (n : Fin 64) (z t : _), s.running = true → z = s.zone n.val → z.cfg.active = true →
    z.doorOpen = true → z.doorDegraded = false → z.cfg.doorGrace ≤ z.openMinutes →
    t = s.setZone n.val
      { z with
        doorDegraded := true
        mode := .degraded
        eRate := (zoneRates s.grid s.settings.staleRate { z with doorDegraded := true }).1
        pRate := (zoneRates s.grid s.settings.staleRate { z with doorDegraded := true }).2 } →
    exec (.doorGraceReached n) s =
      .next (if z.mode = .normal then t.raise .zoneDegraded (.zone n.val) (some (.cause .door)) else t)

/-- Every claim loses a second at each second, and one that has run out is freed with CLAIM_LAPSED naming its link
(R153). That the second leaves such a claim standing at 0 until the next step, which frees it, is the model's choice (log
entry 4). -/
def Obligations.ClaimSecondsAndLapse : Prop :=
  (∀ s : State, s.calm = true →
    exec .claimSecond s = .next { s with claims := s.claims.map fun c => { c with seconds := c.seconds - 1 } }) ∧
  ∀ (s : State) (it : Item) (c : Claim), s.running = true → s.claimOf it = some c → c.seconds = 0 →
    exec (.claimLapsed it) s =
      .next
        ({ s with claims := s.claims.filter fun c => c.item ≠ it }.raise .claimLapsed (.item it (s.labelOf it))
          (some (.link c.link)))

/-- A due head is a pending key event and changes nothing by itself (the model's choice, log entry 5); a drain settles the
due head of the lowest-numbered due zone, the E head before the P head (R41, R142), and ends what may have held the store
over the last minute event (the model's choice, log entry 33). -/
def Obligations.DrainTakesDueHead : Prop :=
  (∀ (s : State) (n : Fin 64), s.calm = true → exec (.keyEvent n) s = .next s) ∧
  (∀ (s : State) (n : Nat) (h : KeyEntry) (rest : List KeyEntry), s.ready = true → n < 64 →
    (∀ m < n, (s.zone m).due = false) → (s.zone n).eList = h :: rest → h.key ≤ (s.zone n).e →
    exec .drain s = .next (({ s with heldOver := .none } : State).settleStamped h.slot).freeStore) ∧
  ∀ (s : State) (n : Nat) (h : KeyEntry) (rest : List KeyEntry), s.ready = true → n < 64 →
    (∀ m < n, (s.zone m).due = false) → (s.zone n).eDue = false → (s.zone n).pList = h :: rest → h.key ≤ (s.zone n).p →
    exec .drain s = .next (({ s with heldOver := .none } : State).settleStamped h.slot).freeStore

/-! Carrier accounts (chapter 1) -/

/-- Exposure, progress, anchors and open segment of a settle, by residence mode (R9, R10); nothing else of the record
changes in these steps. -/
def Obligations.SettleCharges : Prop :=
  (∀ (e p : Nat) (c : Carrier) (x : Nat),
    x = (match c.mode with
      | .still => c.base
      | .rest => if c.eligible then min (c.base + (e - c.aE) - (p - c.aP)) 4294967295
          else min (c.base + (e - c.aE)) 4294967295
      | _ => min (c.base + (e - c.aE)) 4294967295) →
    charge e p c =
      { c with
        base := x
        progress := if c.mode = .bake then min (c.progress + (p - c.aP)) 4294967295 else c.progress
        aE := e
        aP := p
        openSeg := { c.openSeg with credits := c.openSeg.credits + ((x : Int) - (c.base : Int)) } }) ∧
  (∀ s : State, s.integrals none = (0, 0)) ∧
  ∀ (s : State) (slot : Nat) (c : Carrier), s.carrier slot = some c →
    (s.settle slot).1.carrier slot = some (s.settled c).1

/-- A bake completes at a settle exactly when R11's three conditions hold, and makes R11's changes. -/
def Obligations.BakeCompletion : Prop :=
  ∀ (v : ClassValues) (e p : Nat) (clock : Option Word) (minute : Word) (c k t : Carrier),
    k = charge e p c → t = (settleRecord v e p clock minute c).1 →
    (c.mode = .bake ∧ c.life ≠ .spent ∧ c.bakeCount < v.bakeBudget ∧ v.bakeRequirement ≤ k.progress →
      t.base = 0 ∧ t.carried = 0 ∧ t.closed = [] ∧
        t.openSeg = { zone := c.openSeg.zone, mode := c.openSeg.mode, stamp := clock, entry := minute, credits := 0 } ∧
        t.bakeCount = c.bakeCount + 1 ∧ t.bakeCount ≤ v.bakeBudget ∧ t.progress = 0 ∧
        (v.limited = false ∨ 0 < v.warnLevel → t.life = .fresh) ∧
        AlertKind.bakeDone ∈ (settleRecord v e p clock minute c).2) ∧
    (¬(c.mode = .bake ∧ c.life ≠ .spent ∧ c.bakeCount < v.bakeBudget ∧ v.bakeRequirement ≤ k.progress) →
      t.base = k.base ∧ t.carried = c.carried ∧ t.closed = c.closed ∧ t.openSeg = k.openSeg ∧
        t.bakeCount = c.bakeCount ∧ t.progress = k.progress ∧
        AlertKind.bakeDone ∉ (settleRecord v e p clock minute c).2) ∧
    ∀ (s : State) (slot : Nat), s.carrier slot = some c →
      (s.settle slot).1.alerts =
        ((s.settled c).2.foldl (fun u a => u.raise a (.item (.carrier slot) (s.labelOf (.carrier slot))) none) s).alerts

/-- The table of R13, L and W in credits, every row and every case in which the status stays; a settle evaluates it on
the settled exposure and raises the alert of the new status when it changes, after any BAKE_DONE or RECOVERED. -/
def Obligations.ThresholdTable : Prop :=
  (∀ (f : ClassFields), (classValuesOf f).limit = 16 * f.limit.toNat ∧
    (classValuesOf f).warnLevel = 16 * f.limit.toNat * f.warn.toNat / 16) ∧
  (∀ (v : ClassValues) (n x : Nat) (life : Life),
    (v.limit = 0 → evaluate v n x life = life) ∧
    (v.limit ≠ 0 → v.limit ≤ x → n < v.bakeBudget → life = .fresh ∨ life = .warned →
      evaluate v n x life = .expired) ∧
    (v.limit ≠ 0 → v.limit ≤ x → v.bakeBudget ≤ n → life = .fresh ∨ life = .warned → evaluate v n x life = .spent) ∧
    (v.limit ≠ 0 → v.bakeBudget ≤ n → life = .expired → evaluate v n x life = .spent) ∧
    (v.limit ≠ 0 → n < v.bakeBudget → life = .expired → evaluate v n x life = .expired) ∧
    (v.limit ≠ 0 → x < v.limit → v.warnLevel ≤ x → life = .fresh → evaluate v n x life = .warned) ∧
    (v.limit ≠ 0 → x < v.limit → x < v.warnLevel → life = .fresh → evaluate v n x life = .fresh) ∧
    (v.limit ≠ 0 → x < v.limit → life = .warned → evaluate v n x life = .warned) ∧
    (life = .spent → evaluate v n x life = .spent)) ∧
  ∀ (v : ClassValues) (e p : Nat) (clock : Option Word) (minute : Word) (c k t : Carrier) (before : Life),
    k = charge e p c → t = (settleRecord v e p clock minute c).1 →
    before = (if bakeReady v k then .fresh else c.life) →
    t.life = evaluate v t.bakeCount t.base before ∧
    (settleRecord v e p clock minute c).2 =
      (if bakeReady v k then [AlertKind.bakeDone] else []) ++
        (if c.mode = .rest ∧ t.base = 0 ∧ 0 < c.base then [AlertKind.recovered] else []) ++
        (if t.life = before then []
          else match t.life with
            | .warned => [AlertKind.warned]
            | .expired => [AlertKind.expired]
            | .spent => [AlertKind.spent]
            | .fresh => [])

/-- Recovery eligibility and the keys a settle files, by mode and status (R14 to R16), each key beyond its integral, so
that no key is due as it is filed (R42). -/
def Obligations.SettleKeys : Prop :=
  ∀ (v : ClassValues) (e p : Nat) (clock : Option Word) (minute : Word) (c t : Carrier),
    t = (settleRecord v e p clock minute c).1 →
    (t.eligible = true ↔ 0 < v.ceiling ∧ t.base ≤ v.ceiling ∧ (t.life = .fresh ∨ t.life = .warned)) ∧
    (t.eKey =
      if t.mode ≠ .still ∧ v.limit ≠ 0 ∧ t.life = .fresh then some (e + (v.warnLevel - t.base))
      else if t.mode ≠ .still ∧ v.limit ≠ 0 ∧ t.life = .warned then some (e + (v.limit - t.base))
      else none) ∧
    (t.pKey =
      if t.mode = .rest ∧ t.eligible = true ∧ 0 < t.base then some (p + t.base)
      else if t.mode = .bake ∧ t.life ≠ .spent ∧ t.bakeCount < v.bakeBudget then
        some (p + (v.bakeRequirement - t.progress))
      else none) ∧
    (∀ k, t.eKey = some k → e < k) ∧
    (0 < v.bakeRequirement → ∀ k, t.pKey = some k → p < k)

/-- Life status falls back only by a bake completion, in BAKE mode; a SPENT carrier stays SPENT (R5). -/
def Obligations.LifeNeverReturns : Prop :=
  ∀ (v : ClassValues) (e p : Nat) (clock : Option Word) (minute : Word) (c t : Carrier),
    t = (settleRecord v e p clock minute c).1 →
    (c.life = .spent → t.life = .spent) ∧
    (c.life = .expired → t.life = .fresh ∨ t.life = .warned →
      c.mode = .bake ∧ t.bakeCount = c.bakeCount + 1) ∧
    (c.life = .warned → t.life = .fresh → c.mode = .bake ∧ t.bakeCount = c.bakeCount + 1)

/-- What a settle touches: the carrier's record, the lists and status counts of its zone, the Alert Queue; the change
stamp of a settle on its own advances exactly when life status or bake count changed (R8, R17, R19, R46). A key is filed
after every entry of a lower or equal key (R39). -/
def Obligations.SettleFrame : Prop :=
  (∀ (e : KeyEntry) (l : List KeyEntry),
    insertKey e l =
      l.takeWhile (fun x => decide (x.key ≤ e.key)) ++ e :: l.dropWhile (fun x => decide (x.key ≤ e.key))) ∧
  (∀ (s : State) (slot : Nat),
    (s.settle slot).1 =
      { s with
        carriers := (s.settle slot).1.carriers
        zones := (s.settle slot).1.zones
        alerts := (s.settle slot).1.alerts
        overflow := (s.settle slot).1.overflow }) ∧
  (∀ (s : State) (slot m : Nat), m ≠ slot → (s.settle slot).1.carrier m = s.carrier m) ∧
  (∀ (s : State) (slot n : Nat) (c : Carrier), s.carrier slot = some c → c.zone ≠ some n →
    (s.settle slot).1.zone n = s.zone n) ∧
  (∀ (s : State) (slot n : Nat) (c : Carrier), s.carrier slot = some c → c.zone = some n → n < s.zones.length →
    (s.settle slot).1.zone n =
      { s.zone n with
        eList := insertKeyOpt slot (s.settled c).1.eKey ((s.zone n).eList.filter fun x => x.slot ≠ slot)
        pList := insertKeyOpt slot (s.settled c).1.pKey ((s.zone n).pList.filter fun x => x.slot ≠ slot)
        counts :=
          if c.life = (s.settled c).1.life then (s.zone n).counts
          else ((s.zone n).counts.sub c.life).add (s.settled c).1.life }) ∧
  (∀ (s : State) (slot : Nat), s.carrier slot = none → s.settle slot = (s, false)) ∧
  ∀ (s : State) (slot : Nat) (c : Carrier), s.carrier slot = some c →
    (s.settleStamped slot).carrier slot =
      some { (s.settled c).1 with
        stamp :=
          if c.life ≠ (s.settled c).1.life ∨ c.bakeCount ≠ (s.settled c).1.bakeCount then nextStamp c.stamp
          else c.stamp }

/-- A residence change (R4, R21, R22, R45): new parent, packing, zone and mode; fresh anchors; bake progress kept only
into BAKE unless a bake completes; a new open segment when zone or mode changes, the old one closed and at most six kept,
the oldest beyond folded into the carried credits. The keys are withdrawn from the old zone's lists and filed in the new
one's (R4, R17), and the residents and status counts of both follow (R45, R46); no other field of either zone changes. -/
def Obligations.ResidenceChange : Prop :=
  (∀ (carried : Int) (closed : List ClosedSeg), closed.length ≤ 6 → foldSegments carried closed = (carried, closed)) ∧
  (∀ (carried : Int) (old : ClosedSeg) (rest : List ClosedSeg), rest.length = 6 →
    foldSegments carried (old :: rest) = (carried + old.credits, rest)) ∧
  ∀ (s : State) (slot : Nat) (c k t : Carrier) (r : Residence) (u : State),
    s.carrier slot = some c → k = (s.settled c).1 → k.base ≤ 4294967295 → k.progress ≤ 4294967295 →
    c.zone ≠ r.zone ∨ c.mode ≠ r.mode ∨ c.parent ≠ r.parent →
    u = (s.changeResidence slot r).1 → u.carrier slot = some t →
    t.parent = r.parent ∧ t.packed = r.packed ∧ t.zone = r.zone ∧ t.mode = r.mode ∧
      (t.aE, t.aP) = s.integrals r.zone ∧
      t.stamp = c.stamp ∧ t.hold = c.hold ∧ t.cls = c.cls ∧ t.inTransit = c.inTransit ∧ t.enrolStamp = c.enrolStamp ∧
      (r.mode ≠ .bake → t.base = k.base ∧ t.progress = 0 ∧ t.bakeCount = k.bakeCount) ∧
      (r.mode = .bake → t.bakeCount = k.bakeCount → t.base = k.base ∧ t.progress = k.progress) ∧
      (t.bakeCount ≠ k.bakeCount →
        t.bakeCount = k.bakeCount + 1 ∧ t.base = 0 ∧ t.progress = 0 ∧ t.carried = 0 ∧ t.closed = []) ∧
      (c.zone = r.zone ∧ c.mode = r.mode → t.bakeCount = k.bakeCount →
        t.carried = k.carried ∧ t.closed = k.closed ∧ t.openSeg = k.openSeg) ∧
      (c.zone ≠ r.zone ∨ c.mode ≠ r.mode →
        t.openSeg = { zone := r.zone, mode := r.mode, stamp := s.clock, entry := s.minuteCount, credits := 0 }) ∧
      (c.zone ≠ r.zone ∨ c.mode ≠ r.mode → t.bakeCount = k.bakeCount →
        (t.carried, t.closed) =
          foldSegments k.carried
            (k.closed ++
              [{ zone := k.openSeg.zone, mode := k.openSeg.mode, stamp := k.openSeg.stamp,
                 minutes := s.minuteCount - k.openSeg.entry, credits := k.openSeg.credits }])) ∧
      (∀ m, m ≠ slot → u.carrier m = s.carrier m) ∧
      (∀ n, c.zone ≠ some n → r.zone ≠ some n → u.zone n = s.zone n) ∧
      (∀ n, c.zone = some n → r.zone = some n → n < s.zones.length →
        u.zone n =
          { s.zone n with
            eList := insertKeyOpt slot t.eKey ((s.zone n).eList.filter fun x => x.slot ≠ slot)
            pList := insertKeyOpt slot t.pKey ((s.zone n).pList.filter fun x => x.slot ≠ slot)
            counts :=
              if c.life = k.life ∧ k.life = t.life then (s.zone n).counts
              else ((s.zone n).counts.sub c.life).add t.life }) ∧
      (∀ n, c.zone = some n → r.zone ≠ some n → n < s.zones.length →
        u.zone n =
          { s.zone n with
            residents := (s.zone n).residents - 1
            counts := (s.zone n).counts.sub c.life
            eList := (s.zone n).eList.filter fun x => x.slot ≠ slot
            pList := (s.zone n).pList.filter fun x => x.slot ≠ slot }) ∧
      (∀ n, c.zone ≠ some n → r.zone = some n → n < s.zones.length →
        u.zone n =
          { s.zone n with
            residents := (s.zone n).residents + 1
            counts := (s.zone n).counts.add t.life
            eList := insertKeyOpt slot t.eKey ((s.zone n).eList.filter fun x => x.slot ≠ slot)
            pList := insertKeyOpt slot t.pKey ((s.zone n).pList.filter fun x => x.slot ≠ slot) }) ∧
      u =
        { s with carriers := u.carriers, zones := u.zones, alerts := u.alerts, overflow := u.overflow }

/-! Zones, air and doors (chapters 2, 3, 6) -/

/-- The rates and mode of a zone for every state of it (R31, R32), with its bands counted from the edges (R61); a
degraded zone recovers and bakes nothing. -/
def Obligations.ZoneRatesTable : Prop :=
  (∀ (s : State) (z : Zone), z.cfg.active = false → s.recompute z = { z with mode := .normal, eRate := 0, pRate := 0 }) ∧
  (∀ (s : State) (z : Zone), z.cfg.active = true → z.stale = true →
    s.recompute z = { z with mode := .degraded, eRate := s.settings.staleRate, pRate := 0 }) ∧
  (∀ (s : State) (z : Zone) (r : Reading) (t h e p : Nat), z.cfg.active = true → z.stale = false →
    z.reading = some r →
    t = (s.grid.tempEdges.filter fun x => decide (x ≤ r.temp)).length →
    h = (s.grid.humEdges.filter fun x => decide (x ≤ r.hum)).length →
    (z.cfg.kind = .floor →
      e = (if z.cfg.source = .fixed then z.cfg.fixedRate else s.grid.exposure.getD (8 * t + h) 0) ∧ p = 0) →
    (z.cfg.kind ≠ .floor → z.doorDegraded = true → e = s.grid.exposure.getD (8 * t + h) 0 ∧ p = 0) →
    (z.cfg.kind = .dry → z.doorDegraded = false →
      e = 0 ∧ p = if z.cfg.source = .fixed then z.cfg.fixedRate else s.grid.recovery.getD h 0) →
    (z.cfg.kind = .oven → z.doorDegraded = false →
      e = 0 ∧ p = if z.cfg.source = .fixed then z.cfg.fixedRate else s.grid.bake.getD t 0) →
    s.recompute z =
      { z with mode := (if z.doorDegraded then .degraded else .normal), eRate := e, pRate := p }) ∧
  (∀ (edges : List Int) (v : Int), bandOf edges v ≤ edges.length) ∧
  ∀ (s : State) (z : Zone), (s.recompute z).mode = .degraded → (s.recompute z).pRate = 0

/-- SETGRID: the grid is replaced and every active zone recomputed, with no alert (R33, R62); refused with QUIESCED
unless ACTIVE. -/
def Obligations.GridIsSet : Prop :=
  (∀ (s : State) (tag : Byte) (f : GridFields), s.takes .host (.setGrid .host tag f) = true → s.quiesce = .active →
    exec (.setGrid .host tag f) s =
      .next
        (({ s with
            grid := gridOf f
            zones := s.zones.map fun z =>
              if z.cfg.active then
                { z with
                  mode := zoneMode z
                  eRate := (zoneRates (gridOf f) s.settings.staleRate z).1
                  pRate := (zoneRates (gridOf f) s.settings.staleRate z).2 }
              else z } : State).replies .host 0x32 tag [0x00])) ∧
  ∀ (s : State) (tag : Byte) (f : GridFields), s.takes .host (.setGrid .host tag f) = true → s.quiesce ≠ .active →
    exec (.setGrid .host tag f) s = .next (s.replies .host 0x32 tag [0x23])

/-- AMBIENT: a valid reading of an active zone is stored, reloads the countdown, clears the stale flag and recomputes
the zone, with ZONE_RESTORED when that ends its degradation (R106, R107, R111); every other reading is refused with
BAD_FIELD and a fault (R106). -/
def Obligations.ReadingIsTaken : Prop :=
  (∀ (s : State) (l : Link) (tag zone : Byte) (temp hum : Half) (z t : Zone) (u : State),
    s.takes l (.ambient l tag zone temp hum) = true → zone.toNat < 64 → z = s.zone zone.toNat → z.cfg.active = true →
    -400 ≤ temp.toInt → temp.toInt ≤ 2500 → hum.toNat ≤ 1000 →
    t = s.recompute
      { z with reading := some { temp := temp.toInt, hum := hum.toNat }, countdown := z.cfg.staleLimit, stale := false } →
    u = (s.setZone zone.toNat t) →
    exec (.ambient l tag zone temp hum) s =
      .next
        ((if z.mode = .degraded ∧ t.mode = .normal then u.raise .zoneRestored (.zone zone.toNat) none
          else if z.mode = .normal ∧ t.mode = .degraded then
            u.raise .zoneDegraded (.zone zone.toNat) (some (.cause .stale))
          else u).replies l 0x38 tag
            ([0x00, zoneModeCode t.mode, 0x00] ++ yes t.doorDegraded ++
              u8 (bandOf s.grid.tempEdges temp.toInt) ++ u8 (bandOf s.grid.humEdges hum.toNat) ++ u8 t.eRate ++
              u8 t.pRate))) ∧
  (∀ (s : State) (l : Link) (tag zone : Byte) (temp hum : Half), s.takes l (.ambient l tag zone temp hum) = true →
    64 ≤ zone.toNat →
    exec (.ambient l tag zone temp hum) s =
      .next ((s.raiseFault .unknownZone .ambient none none none).replies l 0x38 tag [0x11])) ∧
  (∀ (s : State) (l : Link) (tag zone : Byte) (temp hum : Half), s.takes l (.ambient l tag zone temp hum) = true →
    zone.toNat < 64 → (s.zone zone.toNat).cfg.active = false →
    exec (.ambient l tag zone temp hum) s =
      .next ((s.raiseFault .unknownZone .ambient none none (some zone.toNat)).replies l 0x38 tag [0x11])) ∧
  ∀ (s : State) (l : Link) (tag zone : Byte) (temp hum : Half), s.takes l (.ambient l tag zone temp hum) = true →
    zone.toNat < 64 → (s.zone zone.toNat).cfg.active = true →
    temp.toInt < -400 ∨ 2500 < temp.toInt ∨ 1000 < hum.toNat →
    exec (.ambient l tag zone temp hum) s =
      .next ((s.raiseFault .ambientRange .ambient none none (some zone.toNat)).replies l 0x38 tag [0x11])

/-- A change of a door line is delivered to every active zone that follows it and to no other: at an opening the door
is open, its minutes 0, its events one more, and it is degraded at once under a grace of 0, with ZONE_DEGRADED of cause
DOOR when it was NORMAL; at a closing the door is closed and any door-degradation ends, with ZONE_RESTORED when the zone
returns to NORMAL (R111, R112, R114, R116). The zones of one line raise their alerts in ascending order (the model's
choice, log entry 21). A row whose change the line already has leaves State as it is (the model's choice, log entries 2
and 25). -/
def Obligations.DoorsAreFollowed : Prop :=
  (∀ (s : State) (line : Fin 8), s.calm = true → s.lineOpen line.val = false →
    ∃ t, exec (.doorOpening line) s = .next t ∧ t.lineOpen line.val = true ∧
      (∀ k, k < 8 → k ≠ line.val → t.lineOpen k = s.lineOpen k) ∧
      (∀ (n : Nat) (z u : Zone), z = s.zone n → n < 64 → z.cfg.active = true → z.cfg.doorLine = some line.val →
        u =
          { z with
            doorOpen := true
            openMinutes := 0
            doorEvents := min (z.doorEvents + 1) 255
            doorDegraded := z.doorDegraded || decide (z.cfg.doorGrace = 0) } →
        t.zone n = if z.cfg.doorGrace = 0 then s.recompute u else u) ∧
      (∀ n, (s.zone n).cfg.active = false ∨ (s.zone n).cfg.doorLine ≠ some line.val → t.zone n = s.zone n) ∧
      t.alerts = (s.doorAlerts line.val s.zone t.zone).alerts ∧
      t.overflow = (s.doorAlerts line.val s.zone t.zone).overflow ∧
      t = { s with doorLevel := t.doorLevel, zones := t.zones, alerts := t.alerts, overflow := t.overflow }) ∧
  (∀ (s : State) (line : Fin 8), s.calm = true → s.lineOpen line.val = true →
    ∃ t, exec (.doorClosing line) s = .next t ∧ t.lineOpen line.val = false ∧
      (∀ k, k < 8 → k ≠ line.val → t.lineOpen k = s.lineOpen k) ∧
      (∀ (n : Nat) (z u : Zone), z = s.zone n → n < 64 → z.cfg.active = true → z.cfg.doorLine = some line.val →
        u = { z with doorOpen := false, openMinutes := 0, doorDegraded := false } →
        t.zone n = if z.doorDegraded then s.recompute u else u) ∧
      (∀ n, (s.zone n).cfg.active = false ∨ (s.zone n).cfg.doorLine ≠ some line.val → t.zone n = s.zone n) ∧
      t.alerts = (s.doorAlerts line.val s.zone t.zone).alerts ∧
      t.overflow = (s.doorAlerts line.val s.zone t.zone).overflow ∧
      t = { s with doorLevel := t.doorLevel, zones := t.zones, alerts := t.alerts, overflow := t.overflow }) ∧
  (∀ (s : State) (line : Fin 8), s.calm = true →
    (s.lineOpen line.val = true → exec (.doorOpening line) s = .next s) ∧
      (s.lineOpen line.val = false → exec (.doorClosing line) s = .next s)) ∧
  ∀ (s : State) (n : Nat) (old new : Zone),
    (old.mode = .normal → new.mode = .degraded →
      s.doorAlert n old new = s.raise .zoneDegraded (.zone n) (some (.cause .door))) ∧
    (old.mode = .degraded → new.mode = .normal → s.doorAlert n old new = s.raise .zoneRestored (.zone n) none) ∧
    (old.mode = new.mode → s.doorAlert n old new = s)

/-- SETZONE: refused with QUIESCED, BUSY and OCCUPIED in that order; accepted, the configuration is stored, and a newly
active zone begins stale, without countdown, its door sampled; the countdown and the door fields of a zone that stays active
follow R110 and R117; a change of mode raises its alert (R28 to R30, R110, R111, R117). Three points are the model's
choice: QUIESCED is answered before the store is waited for (log entry 31), a door line of none closes the door of any
zone that had a line, also at deactivation and while inactive (log entry 32), and a door is sampled at the level last
taken (log entry 25). -/
def Obligations.ZoneIsSet : Prop :=
  (∀ (s : State) (tag : Byte) (f : ZoneFields), s.takes .host (.setZone .host tag f) = true → s.quiesce ≠ .active →
    exec (.setZone .host tag f) s = .next (s.replies .host 0x30 tag [0x23])) ∧
  (∀ (s : State) (tag : Byte) (f : ZoneFields), s.grants .host (.setZone .host tag f) = true → s.quiesce = .active →
    ((s.zone f.zone.toNat).cfg.active = true ∧ f.active = 0) ∨ (s.zone f.zone.toNat).cfg.kind ≠ zoneKindOf f.kind →
    (s.heldByBatch f.zone.toNat = true →
      exec (.setZone .host tag f) s = .next ((s.granted .host (.setZone .host tag f)).ends .host 0x30 tag [0x20])) ∧
    (s.heldByBatch f.zone.toNat = false →
      0 < (s.zone f.zone.toNat).residents ∨ 0 < (s.zone f.zone.toNat).containers →
      exec (.setZone .host tag f) s = .next ((s.granted .host (.setZone .host tag f)).ends .host 0x30 tag [0x1B]))) ∧
  (∀ (s : State) (tag : Byte) (f : ZoneFields) (z : Zone), s.grants .host (.setZone .host tag f) = true →
    s.quiesce = .active → z = s.zone f.zone.toNat → f.zone.toNat < s.zones.length →
    ((z.cfg.active = true ∧ f.active = 0) ∨ z.cfg.kind ≠ zoneKindOf f.kind →
      s.heldByBatch f.zone.toNat = false ∧ z.residents = 0 ∧ z.containers = 0) →
    ∃ (t : State) (u : Zone), exec (.setZone .host tag f) s = .next (t.ends .host 0x30 tag [0x00]) ∧ u = t.zone f.zone.toNat ∧
      u.cfg = zoneConfigOf f ∧ u.e = z.e ∧ u.p = z.p ∧ u.reading = z.reading ∧ u.doorEvents = z.doorEvents ∧
      u.eList = z.eList ∧ u.pList = z.pList ∧ u.residents = z.residents ∧ u.counts = z.counts ∧
      u.containers = z.containers ∧ u.evacuating = z.evacuating ∧
      u.mode = zoneMode u ∧ (u.eRate, u.pRate) = zoneRates s.grid s.settings.staleRate u ∧
      (z.cfg.active = false → f.active ≠ 0 →
        u.stale = true ∧ u.countdown = 0 ∧ u.openMinutes = 0 ∧ u.doorOpen = s.doorOf u.cfg.doorLine ∧
          u.doorDegraded = (u.doorOpen && decide (f.doorGrace = 0))) ∧
      (z.cfg.active = true → f.active ≠ 0 →
        u.stale = z.stale ∧
          u.countdown =
            (if z.cfg.staleLimit = f.staleLimit.toNat then z.countdown else min z.countdown f.staleLimit.toNat)) ∧
      (z.cfg.active = true → f.active ≠ 0 → z.cfg.doorLine ≠ lineOf f.doorLine →
        u.openMinutes = 0 ∧ u.doorOpen = s.doorOf u.cfg.doorLine ∧
          u.doorDegraded = (u.doorOpen && decide (f.doorGrace = 0))) ∧
      (z.cfg.active = true → f.active ≠ 0 → z.cfg.doorLine = lineOf f.doorLine →
        u.openMinutes = z.openMinutes ∧ u.doorOpen = z.doorOpen ∧
          u.doorDegraded =
            (if z.cfg.doorGrace = f.doorGrace.toNat then z.doorDegraded
            else z.doorOpen && decide (f.doorGrace.toNat ≤ z.openMinutes))) ∧
      (z.cfg.active = true → f.active = 0 → lineOf f.doorLine ≠ none →
        u.stale = z.stale ∧ u.countdown = z.countdown ∧ u.openMinutes = z.openMinutes ∧ u.doorOpen = z.doorOpen ∧
          u.doorDegraded = z.doorDegraded) ∧
      (f.doorLine = 0xFF → z.cfg.doorLine ≠ none →
        u.doorOpen = false ∧ u.openMinutes = 0 ∧ u.doorDegraded = false) ∧
      (z.cfg.active = true → f.active ≠ 0 → z.mode = .normal → u.mode = .degraded →
        t.alerts = (s.raise .zoneDegraded (.zone f.zone.toNat) (some (.cause .door))).alerts) ∧
      (z.cfg.active = true → f.active ≠ 0 → z.mode = .degraded → u.mode = .normal →
        t.alerts = (s.raise .zoneRestored (.zone f.zone.toNat) none).alerts) ∧
      (z.cfg.active = false ∨ f.active = 0 ∨ z.mode = u.mode → t.alerts = s.alerts) ∧
      (∀ m, m ≠ f.zone.toNat → t.zone m = s.zone m) ∧
      t =
        { s.granted .host (.setZone .host tag f) with
          zones := t.zones
          alerts := t.alerts
          overflow := t.overflow })

/-! Frames and requests in hand (chapter 11) -/

/-- A good frame, of which some bytes may have been received already (the model's choice, log entry 23), joins a busy
link's buffer, is decoded into a free link's hand, and is discarded with the overrun flag when four wait; a reply's last
byte frees the hand for the oldest buffered frame (R180, R182). The Frame Engine finds the same frame in its bytes, one
at a time. A link's speed is its straps' baud, its characters have a start bit, 8 data bits with the least significant
first and a stop bit, and its output is high while nothing is sent, as in RETAIN and under RESETn (R179). -/
def Obligations.FramesAreBuffered : Prop :=
  (∀ (s : State) (l : Link) (body : List Byte) (check : Half), s.ready = true → 2 ≤ body.length → body.length ≤ 240 →
    check = crc (BitVec.ofNat 8 body.length :: body) →
    (s.continues l (frameRest body check) = true →
      ((s.link l).hand ≠ none → (s.link l).buffer.length < 4 →
        exec (.goodFrame l body check) s =
          .next (s.setLink l { s.link l with frame := none, buffer := (s.link l).buffer ++ [body] })) ∧
      ((s.link l).hand = none → (s.link l).buffer = [] →
        exec (.goodFrame l body check) s =
          .next (s.setLink l { s.link l with frame := none, hand := some (decodeBody l body) })) ∧
      (∀ (old : List Byte) (rest : List (List Byte)), (s.link l).hand = none → (s.link l).buffer = old :: rest →
        rest.length < 3 →
        exec (.goodFrame l body check) s =
          .next
            (s.setLink l
              { s.link l with frame := none, hand := some (decodeBody l old), buffer := rest ++ [body] })) ∧
      (4 ≤ (s.link l).buffer.length →
        exec (.goodFrame l body check) s = .next (s.setLink l { s.link l with frame := none, overrun := true }))) ∧
    (s.continues l (frameRest body check) = false → exec (.goodFrame l body check) s = .next s) ∧
    ((s.link l).frame = none →
      exec (.goodFrame l body check) s =
        .next ((0x5A :: BitVec.ofNat 8 body.length :: body ++ [check.extractLsb' 8 8, check.extractLsb' 0 8]).foldl
          (fun u b => u.takeByte l b) s))) ∧
  (∀ (s : State) (l : Link) (reply : List Byte), s.calm = true → (s.link l).hand = some (.replying reply) →
    ((s.link l).buffer = [] → exec (.replySent l) s = .next (s.setHand l none)) ∧
    ∀ (body : List Byte) (rest : List (List Byte)), (s.link l).buffer = body :: rest →
      exec (.replySent l) s =
        .next (s.setLink l { s.link l with hand := some (decodeBody l body), buffer := rest })) ∧
  (baud 0b00#2 = 19200 ∧ baud 0b01#2 = 57600 ∧ baud 0b10#2 = 115200 ∧ baud 0b11#2 = 460800) ∧
  (∀ b : Byte, characterBits b =
    [false, b.getLsbD 0, b.getLsbD 1, b.getLsbD 2, b.getLsbD 3, b.getLsbD 4, b.getLsbD 5, b.getLsbD 6, b.getLsbD 7,
      true]) ∧
  (∀ (s : State) (l : Link) (k : Nat), s.running = false ∨ (s.link l).hand = none ∨ s.inHand l ≠ none →
    s.txLevel l k = true) ∧
  ∀ (s : State) (l : Link) (body : List Byte), s.running = true → (s.link l).hand = some (.replying body) →
    s.sending l = some (frameOf body)

/-- A frame with a length outside 2 to 240 or a wrong check, and a silence inside a frame, discard it: the bad-frame flag
and a FRAME_CHECK fault of the link (R180); the check is that of R181. Hunting for a lead byte, every other byte is
discarded with no effect; a bad length is found at the length byte, a wrong check at the second check byte, and hunting
resumes with the next byte. The rows stand for all the bytes of a frame, of which some may have been received already
(the model's choice, log entry 23). -/
def Obligations.BadFramesAreDiscarded : Prop :=
  (∀ (s : State) (l : Link) (n : Byte), s.ready = true → n.toNat < 2 ∨ 240 < n.toNat →
    s.continues l [n] = true →
    exec (.badFrame l (.length n)) s =
      .next
        ((s.setLink l { s.link l with frame := none, badFrame := true }).raiseFault .frameCheck (linkSource l) none none
          none)) ∧
  (∀ (s : State) (l : Link) (body : List Byte) (check : Half), s.ready = true → 2 ≤ body.length → body.length ≤ 240 →
    check ≠ crc (BitVec.ofNat 8 body.length :: body) → s.continues l (frameRest body check) = true →
    exec (.badFrame l (.check body check)) s =
      .next
        ((s.setLink l { s.link l with frame := none, badFrame := true }).raiseFault .frameCheck (linkSource l) none none
          none)) ∧
  (∀ (s : State) (l : Link), s.ready = true → s.continues l [] = true →
    exec (.frameSilence l []) s =
      .next
        ((s.setLink l { s.link l with frame := none, badFrame := true }).raiseFault .frameCheck (linkSource l) none none
          none)) ∧
  (∀ (s : State) (l : Link) (n : Byte) (rest : List Byte), s.ready = true → 2 ≤ n.toNat → n.toNat ≤ 240 →
    rest.length < n.toNat + 2 → s.continues l (n :: rest) = true →
    exec (.frameSilence l (n :: rest)) s =
      .next
        ((s.setLink l { s.link l with frame := none, badFrame := true }).raiseFault .frameCheck (linkSource l) none none
          none)) ∧
  (∀ (s : State) (l : Link) (b : Byte), (s.link l).frame = none →
    (b ≠ 0x5A → s.takeByte l b = s) ∧
    (b = 0x5A → s.takeByte l b = s.setLink l { s.link l with frame := some [] })) ∧
  (∀ (s : State) (l : Link) (n : Byte), (s.link l).frame = some [] →
    (2 ≤ n.toNat → n.toNat ≤ 240 → s.takeByte l n = s.setLink l { s.link l with frame := some [n] }) ∧
    (n.toNat < 2 ∨ 240 < n.toNat →
      s.takeByte l n =
        (s.setLink l { s.link l with frame := none, badFrame := true }).raiseFault .frameCheck (linkSource l) none none
          none)) ∧
  (∀ (s : State) (l : Link) (n b : Byte) (got : List Byte), (s.link l).frame = some (n :: got) → 2 ≤ n.toNat →
    n.toNat ≤ 240 →
    (got.length + 1 < n.toNat + 2 → s.takeByte l b = s.setLink l { s.link l with frame := some (n :: got ++ [b]) }) ∧
    ∀ (body : List Byte) (hi lo : Byte), got ++ [b] = body ++ [hi, lo] → body.length = n.toNat →
      hi ++ lo ≠ crc (n :: body) →
      s.takeByte l b =
        (s.setLink l { s.link l with frame := none, badFrame := true }).raiseFault .frameCheck (linkSource l) none none
          none) ∧
  (∀ (bytes got : List Byte) (s : State) (l : Link), (s.link l).frame = some got →
    (s.continues l bytes = true ↔ ∃ more, bytes = got ++ more)) ∧
  (∀ (bytes : List Byte) (s : State) (l : Link), (s.link l).frame = none → s.continues l bytes = true) ∧
  crc [0x31, 0x32, 0x33, 0x34, 0x35, 0x36, 0x37, 0x38, 0x39] = 0x29B1

/-- What the Frame Engine makes of a body taken into hand (R183, R185): an unknown kind, a kind not permitted, fields
that do not parse or are out of range, or a request for its owner. -/
def Obligations.BodiesAreDecoded : Prop :=
  (∀ (l : Link) (kind tag : Byte) (fields : List Byte),
    (kind ∉ catalogue → decodeBody l (kind :: tag :: fields) = .replying [0xFF, tag, 0x10, kind]) ∧
    (kind ∈ catalogue → permitted l kind = false →
      decodeBody l (kind :: tag :: fields) = .replying [kind + 0x80, tag, 0x12]) ∧
    (kind ∈ catalogue → permitted l kind = true → parseFields l kind tag fields = none →
      decodeBody l (kind :: tag :: fields) = .replying [kind + 0x80, tag, 0x11]) ∧
    (∀ c, kind ∈ catalogue → permitted l kind = true → parseFields l kind tag fields = some c → fieldsOk c = false →
      decodeBody l (kind :: tag :: fields) = .replying [kind + 0x80, tag, 0x11]) ∧
    ∀ c, kind ∈ catalogue → permitted l kind = true → parseFields l kind tag fields = some c → fieldsOk c = true →
      decodeBody l (kind :: tag :: fields) = .waiting c) ∧
  (∀ (l : Link) (kind tag : Byte) (fields : List Byte) (c : Instr), parseFields l kind tag fields = some c →
    requestOf c = some (l, tag) ∧ kindCode c = kind) ∧
  (∀ kind, permitted .host kind = true) ∧
  ∀ kind, permitted .floor kind = true ↔
    kind ∈ [0x01, 0x11, 0x12, 0x13, 0x14, 0x15, 0x20, 0x21, 0x38, 0x40, 0x41]

/-- A request row on an idle link is refused with NOT_PERMITTED or BAD_FIELD by the Frame Engine, with no other effect;
one that must wait for the store is held in hand until its grant; a link whose hand is taken takes none (R142, R182,
R183, R185; the row on an idle link stands for its frame, the model's choice, log entry 3). -/
def Obligations.RequestsInHand : Prop :=
  (∀ (s : State) (l : Link) (c : Instr) (tag : Byte), requestOf c = some (l, tag) → s.ready = true →
    (s.link l).hand = none → (s.link l).buffer = [] → (s.link l).frame = none →
    (permitted l (kindCode c) = false → exec c s = .next (s.replies l (kindCode c) tag [0x12])) ∧
    (permitted l (kindCode c) = true → fieldsOk c = false → exec c s = .next (s.replies l (kindCode c) tag [0x11])) ∧
    (permitted l (kindCode c) = true → fieldsOk c = true → s.waitsForStore c = true →
      (s.holding l c).awards (.port l) = false → exec c s = .next (s.holding l c)) ∧
    (permitted l (kindCode c) = true → fieldsOk c = true → exec c (s.holding l c) = exec c s)) ∧
  ∀ (s : State) (l : Link) (c : Instr) (tag : Byte), requestOf c = some (l, tag) → s.calm = true →
    ((s.link l).hand ≠ none ∨ (s.link l).buffer ≠ [] ∨ (s.link l).frame ≠ none) →
    (s.link l).hand ≠ some (.waiting c) → exec c s = .next s

/-- STATUS reports its link's flags and clears them; SETCLOCK sets the clock and replies with the old one (R186 to
R188). -/
def Obligations.StatusAndClock : Prop :=
  (∀ (s : State) (l : Link) (tag : Byte), s.takes l (.status l tag) = true →
    exec (.status l tag) s =
      .next
        ((s.setLink l { s.link l with badFrame := false, overrun := false }).replies l 0x01 tag
          ([0x00, startCode s.lastStart, quiesceCode s.quiesce] ++ opt encClock s.clock ++ u32 s.minuteCount.toNat ++
            u16 (4096 - s.carriers.length) ++ u16 (512 - s.containers.length) ++ u8 s.batches.length ++
            u8 s.alerts.length ++ yes s.overflow ++
            [arbiterCode s.settings.arbiterMode, orderCode s.settings.alertOrder] ++
            u8 (s.claims.filter fun c => c.link = .host).length ++
            u8 (s.claims.filter fun c => c.link = .floor).length ++
            [match s.capture with
              | none => 0
              | some r => if r.kind = .watchMatch then 2 else 1] ++
            yes (s.link l).badFrame ++ yes (s.link l).overrun))) ∧
  ∀ (s : State) (tag : Byte) (clock : Word), s.takes .host (.setClock .host tag clock) = true →
    exec (.setClock .host tag clock) s =
      .next ({ s with clock := some clock }.replies .host 0x02 tag (0x00 :: opt encClock s.clock))

/-- SETUNIT (R63, R112, R114, R116, R144, R189): every setting at once; a change of arbiter mode clears the port-grant
count and what is owed, a change of stale rate recomputes the stale active zones, and each line whose inversion changes
takes an opening or a closing in every zone that follows it, with the alerts of both. The lines are taken from 0 to 7,
and the zones of a line in ascending order (the model's choice, log entry 21). -/
def Obligations.UnitIsSet : Prop :=
  (∀ (s : State) (tag : Byte) (f : UnitFields), s.takes .host (.setUnit .host tag f) = true → s.quiesce ≠ .active →
    exec (.setUnit .host tag f) s = .next (s.replies .host 0x03 tag [0x23])) ∧
  (∀ (s : State) (tag : Byte) (f : UnitFields), s.takes .host (.setUnit .host tag f) = true → s.quiesce = .active →
    f.inversion = s.settings.inversion →
    exec (.setUnit .host tag f) s =
      .next
        (({ s with
            settings := settingsOf f
            portCount := if s.settings.arbiterMode = (settingsOf f).arbiterMode then s.portCount else 0
            owed := if s.settings.arbiterMode = (settingsOf f).arbiterMode then s.owed else []
            zones :=
              if s.settings.staleRate = f.staleRate.toNat then s.zones
              else
                s.zones.map fun z =>
                  if z.cfg.active && z.stale then
                    { z with mode := .degraded, eRate := f.staleRate.toNat, pRate := 0 }
                  else z } : State).replies .host 0x03 tag
          [0x00, f.arbiterMode, f.alertOrder, f.hostLimit, f.floorLimit, f.staleRate, f.watchBlock, f.inversion])) ∧
  ∀ (s u w : State) (tag : Byte) (f : UnitFields) (y : Nat → Zone), s.takes .host (.setUnit .host tag f) = true →
    s.quiesce = .active →
    (∀ n, y n =
      if s.settings.staleRate ≠ f.staleRate.toNat ∧ (s.zone n).cfg.active = true ∧ (s.zone n).stale = true then
        { s.zone n with mode := .degraded, eRate := f.staleRate.toNat, pRate := 0 }
      else s.zone n) →
    u = { s with settings := settingsOf f } →
    ∃ t : State, exec (.setUnit .host tag f) s =
        .next
          (t.replies .host 0x03 tag
            [0x00, f.arbiterMode, f.alertOrder, f.hostLimit, f.floorLimit, f.staleRate, f.watchBlock, f.inversion]) ∧
      t =
        { s with
          settings := settingsOf f
          portCount := if s.settings.arbiterMode = (settingsOf f).arbiterMode then s.portCount else 0
          owed := if s.settings.arbiterMode = (settingsOf f).arbiterMode then s.owed else []
          hostLink := t.hostLink
          zones := t.zones
          alerts := t.alerts
          overflow := t.overflow } ∧
      (∀ (n d : Nat), n < 64 → d < 8 → (s.zone n).cfg.active = true → (s.zone n).cfg.doorLine = some d →
        s.settings.inversion.getLsbD d ≠ f.inversion.getLsbD d →
        ((s.doorLevel.getLsbD d ^^ f.inversion.getLsbD d) = true →
          t.zone n =
            if (s.zone n).cfg.doorGrace = 0 then
              u.recompute
                { y n with
                  doorOpen := true
                  openMinutes := 0
                  doorEvents := min ((s.zone n).doorEvents + 1) 255
                  doorDegraded := true }
            else
              { y n with doorOpen := true, openMinutes := 0, doorEvents := min ((s.zone n).doorEvents + 1) 255 }) ∧
        ((s.doorLevel.getLsbD d ^^ f.inversion.getLsbD d) = false →
          t.zone n =
            if (s.zone n).doorDegraded then
              u.recompute { y n with doorOpen := false, openMinutes := 0, doorDegraded := false }
            else { y n with doorOpen := false, openMinutes := 0 })) ∧
      (∀ (n d : Nat), (s.zone n).cfg.active = false ∨ (s.zone n).cfg.doorLine = none ∨
          ((s.zone n).cfg.doorLine = some d ∧ s.settings.inversion.getLsbD d = f.inversion.getLsbD d) →
        t.zone n = y n) ∧
      (w =
          (List.range 8).foldl
            (fun v d =>
              if s.settings.inversion.getLsbD d = f.inversion.getLsbD d then v else v.doorAlerts d y t.zone) s →
        t.alerts = w.alerts ∧ t.overflow = w.overflow)

/-! Quiesce, resume, erase (chapter 7) -/

/-- QUIESCE: IMMEDIATE from ACTIVE makes the state QUIESCED with no record queued and QUIESCING with any; CONDITIONAL
makes it QUIESCED with none queued, and is PENDING otherwise (R137). That the PENDING reply gives the count before the
state is the model's choice (log entry 30). -/
def Obligations.QuiesceStates : Prop :=
  (∀ (s : State) (tag : Byte) (q : Quiesce), s.grants .host (.quiesceImmediate .host tag) = true →
    q = (if s.quiesce = .active then (if s.batches = [] then .quiesced else .quiescing) else s.quiesce) →
    exec (.quiesceImmediate .host tag) s =
      .next
        ({ s.granted .host (.quiesceImmediate .host tag) with quiesce := q }.ends .host 0x05 tag
          ([0x00, quiesceCode q] ++ u8 s.batches.length))) ∧
  (∀ (s : State) (tag : Byte), s.grants .host (.quiesceConditional .host tag) = true → s.batches = [] →
    s.quiesce ≠ .quiescing →
    exec (.quiesceConditional .host tag) s =
      .next
        ({ s.granted .host (.quiesceConditional .host tag) with quiesce := .quiesced }.ends .host 0x05 tag
          [0x00, 2, 0])) ∧
  ∀ (s : State) (tag : Byte), s.grants .host (.quiesceConditional .host tag) = true →
    s.batches ≠ [] ∨ s.quiesce = .quiescing →
    exec (.quiesceConditional .host tag) s =
      .next
        ((s.granted .host (.quiesceConditional .host tag)).ends .host 0x05 tag
          ([0x24] ++ u8 s.batches.length ++ [quiesceCode s.quiesce]))

/-- RESUME (R138): ACTIVE and DONE from QUIESCING or QUIESCED, the oldest record then RUNNING; STATE from ACTIVE;
NOT_PERMITTED on the Floor Link; it waits for the store. -/
def Obligations.ResumeMakesActive : Prop :=
  (∀ (s : State) (tag : Byte), s.grants .host (.resume .host tag) = true → s.quiesce ≠ .active →
    exec (.resume .host tag) s =
      .next ({ s.granted .host (.resume .host tag) with quiesce := .active }.ends .host 0x06 tag [0x00])) ∧
  (∀ (s t : State) (tag : Byte), s.grants .host (.resume .host tag) = true → s.quiesce ≠ .active →
    exec (.resume .host tag) s = .next t →
    t.batches = s.batches ∧ t.runningBatch = s.batches.head? ∧ t.stepWaiting = !s.batches.isEmpty ∧
      (s.quiesce = .quiescing → t.runningBatch = s.runningBatch)) ∧
  (∀ (s : State) (tag : Byte), s.grants .host (.resume .host tag) = true → s.quiesce = .active →
    exec (.resume .host tag) s =
      .next ((s.granted .host (.resume .host tag)).ends .host 0x06 tag [0x18])) ∧
  (∀ (s : State) (tag : Byte), s.ready = true → s.floorLink.hand = none → s.floorLink.buffer = [] →
    s.floorLink.frame = none → exec (.resume .floor tag) s = .next (s.replies .floor 0x06 tag [0x12])) ∧
  ∀ (s : State) (tag : Byte), s.waitsForStore (.resume .host tag) = true

/-- ERASE (R140): STATE unless QUIESCED, PENDING with the batch count while records are queued, else every account,
label, claim and alert goes, and the zones' and classes' counts with them; integrals and configuration stay. -/
def Obligations.EraseEmptiesTheStore : Prop :=
  ∀ (s : State) (tag : Byte), s.grants .host (.erase .host tag) = true →
    (s.quiesce ≠ .quiesced →
      exec (.erase .host tag) s = .next ((s.granted .host (.erase .host tag)).ends .host 0x04 tag [0x18])) ∧
    (s.quiesce = .quiesced → s.batches ≠ [] →
      exec (.erase .host tag) s =
        .next ((s.granted .host (.erase .host tag)).ends .host 0x04 tag (0x24 :: u8 s.batches.length))) ∧
    (s.quiesce = .quiesced → s.batches = [] →
      exec (.erase .host tag) s =
        .next
          (({ s.granted .host (.erase .host tag) with
              carriers := []
              containers := []
              directory := []
              claims := []
              alerts := []
              overflow := false
              zones := s.zones.map fun z =>
                { z with
                  eList := []
                  pList := []
                  residents := 0
                  counts := { fresh := 0, warned := 0, expired := 0, spent := 0 }
                  containers := 0
                  evacuating := false }
              classes := s.classes.map fun c => { c with inUse := 0, revisions := 0 } } : State).ends .host 0x04 tag
            [0x00]))

/-! Enrolment and movement (chapters 4 and 5) -/

/-- The order of checks of an item request under its grant, steps 3 to 7 (R68, R69): NOT_FOUND, BUSY, CLAIMED,
STALE_STAMP, QUIESCED, the link's own claim reloaded to its limit once step 5 has passed (R151). NEST makes steps 3, 4 and 5 for its
item and then for its target, and step 6 for the item only (R94). -/
def Obligations.OrderOfChecks : Prop :=
  (∀ (s : State) (l : Link) (c : Instr) (tag : Byte) (label : Label) (stamp : Nat), requestOf c = some (l, tag) →
    itemOperands c = some (label, stamp) → s.grants l c = true →
    (s.find label = none → exec c s = .next ((s.granted l c).ends l (kindCode c) tag [0x13])) ∧
    ∀ it, s.find label = some it →
      (s.inTransit it = true → exec c s = .next ((s.granted l c).ends l (kindCode c) tag [0x20])) ∧
      (∀ k, s.inTransit it = false → s.claimOf it = some k → k.link ≠ l →
        exec c s = .next ((s.granted l c).ends l (kindCode c) tag [0x21, linkCode k.link])) ∧
      (s.inTransit it = false → s.otherClaim l it = none → stamp ≠ 0 → stamp ≠ s.stampOf it →
        exec c s =
          .next ((s.stepEight l c it).ends l (kindCode c) tag (0x22 :: u16 (s.stampOf it)))) ∧
      (s.inTransit it = false → s.otherClaim l it = none → stamp = 0 ∨ stamp = s.stampOf it → s.quiesce ≠ .active →
        exec c s = .next ((s.stepEight l c it).ends l (kindCode c) tag [0x23]))) ∧
  (∀ (s : State) (l : Link) (i : Instr) (it : Item),
    (s.stepEight l i it).claims =
        (s.claims.map fun q => if q.item = it ∧ q.link = l then { q with seconds := s.claimLimit l } else q) ∧
      s.claimLimit .host = s.settings.hostLimit ∧ s.claimLimit .floor = s.settings.floorLimit) ∧
  ∀ (s : State) (l : Link) (tag : Byte) (label target : Label) (stamp : Option Half) (i : Instr),
    i = .nest l tag label target stamp → s.grants l i = true →
    (s.find label = none ∨ s.find target = none → exec i s = .next ((s.granted l i).ends l 0x14 tag [0x13])) ∧
    ∀ (it ta : Item) (g : State), s.find label = some it → s.find target = some ta →
      g = (s.stepEight l i it).reloadClaim l ta →
      (s.inTransit it = true ∨ s.inTransit ta = true → exec i s = .next ((s.granted l i).ends l 0x14 tag [0x20])) ∧
      (∀ k, s.inTransit it = false → s.inTransit ta = false → s.claimOf it = some k → k.link ≠ l →
        exec i s = .next ((s.granted l i).ends l 0x14 tag [0x21, linkCode k.link])) ∧
      (∀ k, s.inTransit it = false → s.inTransit ta = false → s.otherClaim l it = none → s.claimOf ta = some k →
        k.link ≠ l → exec i s = .next ((s.stepEight l i it).ends l 0x14 tag [0x21, linkCode k.link])) ∧
      (s.inTransit it = false → s.inTransit ta = false → s.otherClaim l it = none → s.otherClaim l ta = none →
        (stampOperand stamp ≠ 0 → stampOperand stamp ≠ s.stampOf it →
          exec i s = .next (g.ends l 0x14 tag (0x22 :: u16 (s.stampOf it)))) ∧
        (stampOperand stamp = 0 ∨ stampOperand stamp = s.stampOf it → s.quiesce ≠ .active →
          exec i s = .next (g.ends l 0x14 tag [0x23])))

/-- The Zone Map (R72), and the entry tests of a carrier's location in their order (R74, R75, R164, R165). -/
def Obligations.EntryTests : Prop :=
  (∀ (s : State) (loc z : Nat), s.mapLoc loc = some z →
    z < 64 ∧ (s.zone z).cfg.active = true ∧ (s.zone z).cfg.base ≤ loc ∧
      loc < (s.zone z).cfg.base + 2 ^ (s.zone z).cfg.k ∧
      ∀ m < 64, (s.zone m).cfg.active = true → (s.zone m).cfg.base ≤ loc →
        loc < (s.zone m).cfg.base + 2 ^ (s.zone m).cfg.k →
        (s.zone z).cfg.k < (s.zone m).cfg.k ∨ ((s.zone z).cfg.k = (s.zone m).cfg.k ∧ z ≤ m)) ∧
  (∀ (s : State) (loc : Nat), s.mapLoc loc = none →
    ∀ m < 64, (s.zone m).cfg.active = true →
      ¬((s.zone m).cfg.base ≤ loc ∧ loc < (s.zone m).cfg.base + 2 ^ (s.zone m).cfg.k)) ∧
  (∀ (s : State) (l : Link) (label : Label) (loc : Nat) (life : Life) (held arrival : Bool), s.mapLoc loc = none →
    s.enterCarrier l label loc life held arrival =
      .refused (s.raiseFault .unmapped (linkSource l) (some label) (some loc) none) 0x17 []) ∧
  ∀ (s : State) (l : Link) (label : Label) (loc z : Nat) (life : Life) (held arrival : Bool), s.mapLoc loc = some z →
    ((s.zone z).evacuating = true → s.enterCarrier l label loc life held arrival = .refused s 0x20 []) ∧
    ((s.zone z).evacuating = false → (s.zone z).cfg.gated = true → life = .expired ∨ life = .spent ∨ held = true →
      s.enterCarrier l label loc life held arrival =
        .refused s 0x28 [if life = .spent then 1 else if life = .expired then 0 else 2]) ∧
    ((s.zone z).evacuating = false → (s.zone z).cfg.gated = false → (s.zone z).cfg.kind = .oven → life = .spent →
      s.enterCarrier l label loc life held arrival = .refused s 0x28 [1]) ∧
    ((s.zone z).evacuating = false →
      ((s.zone z).cfg.gated = false ∨ (life ≠ .expired ∧ life ≠ .spent ∧ held = false)) →
      ((s.zone z).cfg.kind ≠ .oven ∨ life ≠ .spent) →
      (arrival = false ∨ s.watchMatches (linkSource l) loc = false →
        s.enterCarrier l label loc life held arrival = .admitted s z) ∧
      (arrival = true → s.watchMatches (linkSource l) loc = true → s.watch.block = false →
        s.enterCarrier l label loc life held arrival =
          .admitted (s.takeMatch (linkSource l) label loc z false) z) ∧
      (arrival = true → s.watchMatches (linkSource l) loc = true → s.watch.block = true →
        s.enterCarrier l label loc life held arrival =
          .refused (s.takeMatch (linkSource l) label loc z true) 0x29 []))

/-- ENROL of a carrier that is accepted, with and without a location (R1, R2, R76, R78): the record in the lowest free
slot after its first settle, with its eligibility and keys (R14 to R16), its label, its class and zone counts, its keys
in the zone's lists (R17), the alert of its first settle and then any BAKE_REFUSED, the record of a match the watch let
pass (R165); nothing else of the accounts. One that is refused is refused in the order of R77 and forms no record. -/
def Obligations.CarrierIsEnrolled : Prop :=
  (∀ (s g : State) (tag : Byte) (label : Label) (cls : Byte) (minutes : Word) (packed bakes : Byte) (loc : Option Half)
    (v : ClassValues) (slot : Nat) (zone : Option Nat) (i : Instr) (mode : ResMode) (life : Life),
    i = .enrolCarrier .host tag label cls minutes packed bakes loc → s.grants .host i = true → s.find label = none →
    tabWf s.carriers = true → s.quiesce = .active → (s.cls cls.toNat).values = some v → 0 < v.bakeRequirement →
    tabFree 4096 s.carriers = some slot → life = evaluate v bakes.toNat (16 * minutes.toNat) .fresh →
    (loc = none ∧ zone = none ∧ g = s.granted .host i) ∨
      (∃ x z, loc = some x ∧ zone = some z ∧
        (s.granted .host i).enterCarrier .host label x.toNat life false true = .admitted g z) →
    mode = s.modeIn zone (decide (packed ≠ 0)) →
    ∃ (t : State) (k : Carrier), exec i s = .next t ∧ t.carrier slot = some k ∧ s.carrier slot = none ∧
      (∀ m < slot, s.carrier m ≠ none) ∧
      k.cls = cls.toNat ∧ k.packed = decide (packed ≠ 0) ∧ k.zone = zone ∧ k.mode = mode ∧ k.life = life ∧
      k.parent = (match loc, zone with
        | some x, some z => some (.place z x.toNat)
        | _, _ => none) ∧
      k.base = 16 * minutes.toNat ∧ k.carried = (16 * minutes.toNat : Nat) ∧ k.closed = [] ∧
      k.openSeg = { zone := zone, mode := mode, stamp := s.clock, entry := s.minuteCount, credits := 0 } ∧
      (k.aE, k.aP) = s.integrals zone ∧ k.progress = 0 ∧ k.bakeCount = bakes.toNat ∧ k.hold = 0 ∧ k.stamp = 1 ∧
      k.inTransit = false ∧ k.enrolStamp = s.clock ∧
      (k.eligible = true ↔ 0 < v.ceiling ∧ 16 * minutes.toNat ≤ v.ceiling ∧ (life = .fresh ∨ life = .warned)) ∧
      k.eKey =
        (if mode ≠ .still ∧ v.limit ≠ 0 ∧ life = .fresh then
          some ((s.integrals zone).1 + (v.warnLevel - 16 * minutes.toNat))
        else if mode ≠ .still ∧ v.limit ≠ 0 ∧ life = .warned then
          some ((s.integrals zone).1 + (v.limit - 16 * minutes.toNat))
        else none) ∧
      k.pKey =
        (if mode = .rest ∧ k.eligible = true ∧ 0 < minutes.toNat then
          some ((s.integrals zone).2 + 16 * minutes.toNat)
        else if mode = .bake ∧ life ≠ .spent ∧ bakes.toNat < v.bakeBudget then
          some ((s.integrals zone).2 + v.bakeRequirement)
        else none) ∧
      t.directory = s.directory ++ [(label, .carrier slot)] ∧
      t.cls cls.toNat = { s.cls cls.toNat with inUse := (s.cls cls.toNat).inUse + 1 } ∧
      (∀ m, m ≠ cls.toNat → t.cls m = s.cls m) ∧
      (∀ z, zone = some z →
        t.zone z =
          { s.zone z with
            residents := (s.zone z).residents + 1
            counts := (s.zone z).counts.add life
            eList := insertKeyOpt slot k.eKey ((s.zone z).eList.filter fun e => e.slot ≠ slot)
            pList := insertKeyOpt slot k.pKey ((s.zone z).pList.filter fun e => e.slot ≠ slot) }) ∧
      (∀ n, zone ≠ some n → t.zone n = s.zone n) ∧ (∀ m, m ≠ slot → t.carrier m = s.carrier m) ∧
      ((∀ e ∈ s.directory, e.2 ≠ .carrier slot) → t.labelOf (.carrier slot) = label) ∧
      (∀ (subj : Subject) (w : State), subj = .item (.carrier slot) (t.labelOf (.carrier slot)) →
        w = (match life with
          | .fresh => g
          | .warned => g.raise .warned subj none
          | .expired => g.raise .expired subj none
          | .spent => g.raise .spent subj none) →
        (mode = .bake → v.bakeBudget ≤ bakes.toNat →
          t.alerts = (w.raise .bakeRefused subj none).alerts ∧ t.overflow = (w.raise .bakeRefused subj none).overflow) ∧
        (mode ≠ .bake ∨ bakes.toNat < v.bakeBudget → t.alerts = w.alerts ∧ t.overflow = w.overflow)) ∧
      t.capture = g.capture ∧ t.moreFaults = g.moreFaults ∧ t.watch = g.watch ∧ t.claims = s.claims ∧
      t.hostLink.hand =
        some (.replying
          ([0x90, tag, 0x00] ++ u16 slot ++ [0x00, 0x01, lifeCode life] ++ orNone zone ++ [modeCode mode])) ∧
      t.floorLink = s.floorLink ∧ State.movesOnly { s with directory := t.directory, classes := t.classes } t) ∧
  ∀ (s : State) (tag : Byte) (label : Label) (cls : Byte) (minutes : Word) (packed bakes : Byte) (loc : Option Half)
    (i : Instr), i = .enrolCarrier .host tag label cls minutes packed bakes loc → s.grants .host i = true →
    (s.find label ≠ none → exec i s = .next ((s.granted .host i).ends .host 0x10 tag [0x14])) ∧
    (s.find label = none → s.quiesce ≠ .active → exec i s = .next ((s.granted .host i).ends .host 0x10 tag [0x23])) ∧
    (s.find label = none → s.quiesce = .active → (s.cls cls.toNat).values = none →
      exec i s = .next ((s.granted .host i).ends .host 0x10 tag [0x16])) ∧
    (s.find label = none → s.quiesce = .active → (s.cls cls.toNat).values ≠ none → tabFree 4096 s.carriers = none →
      exec i s = .next ((s.granted .host i).ends .host 0x10 tag [0x15])) ∧
    ∀ (x : Half) (v : ClassValues) (u : State) (st : Byte) (extra : List Byte), loc = some x → s.find label = none →
      s.quiesce = .active → (s.cls cls.toNat).values = some v → tabFree 4096 s.carriers ≠ none →
      (s.granted .host i).enterCarrier .host label x.toNat
        (evaluate v bakes.toNat (16 * minutes.toNat) .fresh) false true = .refused u st extra →
      exec i s = .next (u.ends .host 0x10 tag (st :: extra))

/-- ENROL of a container (R88, R92): the lowest free number, a record with no member, its label, its zone's count, the
record of a match the watch let pass (R165), no alert of its own, the batch queue and the claims as they were; the six
refusals in R92's order. -/
def Obligations.ContainerIsEnrolled : Prop :=
  (∀ (s g : State) (tag : Byte) (label : Label) (packed : Byte) (loc : Option Half) (n : Nat) (zone : Option Nat)
    (i : Instr),
    i = .enrolContainer .host tag label packed loc → s.grants .host i = true → s.find label = none →
    tabWf s.containers = true → s.quiesce = .active → tabFree 512 s.containers = some n →
    (loc = none ∧ zone = none ∧ g = s.granted .host i) ∨
      (∃ x z, loc = some x ∧ zone = some z ∧
        (s.granted .host i).enterContainer .host label x.toNat = .admitted g z) →
    ∃ t, exec i s = .next t ∧
      t.container n =
        some
          { packed := decide (packed ≠ 0)
            parent := (match loc, zone with
              | some x, some z => some (.place z x.toNat)
              | _, _ => none)
            zone := zone
            members := []
            subtree := 0
            depth := 1
            inTransit := false
            stamp := 1 } ∧
      s.container n = none ∧ (∀ m < n, s.container m ≠ none) ∧ (∀ m, m ≠ n → t.container m = s.container m) ∧
      t.directory = s.directory ++ [(label, .container n)] ∧
      (∀ z, zone = some z → t.zone z = { s.zone z with containers := (s.zone z).containers + 1 }) ∧
      (∀ m, zone ≠ some m → t.zone m = s.zone m) ∧ t.carriers = s.carriers ∧
      t.capture = g.capture ∧ t.moreFaults = g.moreFaults ∧ t.watch = g.watch ∧ t.alerts = g.alerts ∧
      t.overflow = g.overflow ∧ t.claims = s.claims ∧ t.batches = s.batches ∧ t.nextBatch = s.nextBatch ∧
      t.hostLink.hand = some (.replying ([0x90, tag, 0x00] ++ u16 n ++ [0x00, 0x01] ++ orNone zone)) ∧
      t.floorLink = s.floorLink ∧ State.containsOnly { s with directory := t.directory } t) ∧
  ∀ (s : State) (tag : Byte) (label : Label) (packed : Byte) (loc : Option Half) (i : Instr),
    i = .enrolContainer .host tag label packed loc → s.grants .host i = true →
    (s.find label ≠ none → exec i s = .next ((s.granted .host i).ends .host 0x10 tag [0x14])) ∧
    (s.find label = none → s.quiesce ≠ .active → exec i s = .next ((s.granted .host i).ends .host 0x10 tag [0x23])) ∧
    (s.find label = none → s.quiesce = .active → tabFree 512 s.containers = none →
      exec i s = .next ((s.granted .host i).ends .host 0x10 tag [0x15])) ∧
    ∀ x : Half, loc = some x → s.find label = none → s.quiesce = .active → tabFree 512 s.containers ≠ none →
      (s.mapLoc x.toNat = none →
        exec i s =
          .next
            (((s.granted .host i).raiseFault .unmapped .hostLink (some label) (some x.toNat) none).ends .host 0x10 tag
              [0x17])) ∧
      ∀ z, s.mapLoc x.toNat = some z →
        ((s.zone z).evacuating = true → exec i s = .next ((s.granted .host i).ends .host 0x10 tag [0x20])) ∧
        ((s.zone z).evacuating = false → s.watchMatches .hostLink x.toNat = true → s.watch.block = true →
          exec i s =
            .next
              (((s.granted .host i).takeMatch .hostLink label x.toNat z true).ends .host 0x10 tag [0x29])) ∧
        ((s.zone z).evacuating = false → s.watchMatches .hostLink x.toNat = true → s.watch.block = false →
          (s.granted .host i).enterContainer .host label x.toNat =
            .admitted ((s.granted .host i).takeMatch .hostLink label x.toNat z false) z) ∧
        ((s.zone z).evacuating = false → s.watchMatches .hostLink x.toNat = false →
          (s.granted .host i).enterContainer .host label x.toNat = .admitted (s.granted .host i) z)

/-- OPEN, PLACE and PACK of a carrier (R79 to R82). Accepted: its new parent, packing, zone and mode, its record, zones
and alerts those of its residence change, BAKE_REFUSED when it becomes BAKE with no bake left (R4, R76), its change stamp
advanced once, the reply with its zone and mode; a PLACE where it stands changes nothing but the account. Refused: in the
rules' order, the settle standing with its own advance of the stamp (R68, R70). The capture record and the watch are those
the entry left (R165), and the claims those step 5 left (R151). That BAKE_REFUSED needs a change of zone or mode, so that
a PLACE within one oven zone raises none, is the model's choice (log entry 14), and so is that DONE to each of these
three requests carries zone and mode (log entry 38). -/
def Obligations.CarrierIsMoved : Prop :=
  (∀ (s g g0 : State) (l : Link) (tag : Byte) (label : Label) (stamp : Option Half) (loc : Option Half) (n : Nat)
    (c k : Carrier) (r : Residence) (i : Instr),
    i = .openItem l tag label stamp loc → s.grants l i = true → s.passes l label (stampOperand stamp) (.carrier n) →
    s.carrier n = some c → k = (s.settled c).1 → g0 = ((s.stepEight l i (.carrier n)).settle n).1 →
    (c.packed = true →
      (loc = none ∧ c.parent ≠ none ∧ g = g0 ∧
          r = { parent := c.parent, packed := false, zone := c.zone, mode := s.modeUnder c.parent c.zone false } ∧
          ¬(k.life = .spent ∧ r.mode = .bake ∧ c.mode ≠ .bake)) ∨
        (∃ x z, loc = some x ∧ Parent.container? c.parent = none ∧
          g0.enterCarrier l label x.toNat k.life (decide (c.hold ≠ 0))
            (decide (s.locOfParent c.parent ≠ some x.toNat)) = .admitted g z ∧
          r = { parent := some (.place z x.toNat), packed := false, zone := some z, mode := s.modeIn (some z) false }) →
      ∃ t d, exec i s = .next t ∧ t.carrier n = some d ∧ d.parent = r.parent ∧ d.packed = false ∧ d.zone = r.zone ∧
        d.mode = r.mode ∧ d.stamp = nextStamp c.stamp ∧ d.hold = c.hold ∧ g.carrierMoved t n c r false d ∧
        t.claims = (s.stepEight l i (.carrier n)).claims ∧
        (∀ m, m ≠ n → t.carrier m = s.carrier m) ∧ s.airKept t ∧ s.movesOnly t ∧
        (t.link l).hand =
          some (.replying
            ([0x91, tag, 0x00] ++ u16 (nextStamp c.stamp) ++ [lifeCode d.life] ++ orNone r.zone ++
              [modeCode r.mode]))) ∧
    (c.packed = false → exec i s = .next (g0.refusesAtEight l 0x11 tag n c k 0x18 [])) ∧
    (c.packed = true → loc = none → c.parent = none →
      exec i s = .next (g0.refusesAtEight l 0x11 tag n c k 0x11 [])) ∧
    (c.packed = true → loc = none → c.parent ≠ none → k.life = .spent → s.modeUnder c.parent c.zone false = .bake →
      c.mode ≠ .bake → exec i s = .next (g0.refusesAtEight l 0x11 tag n c k 0x28 [1])) ∧
    (c.packed = true → loc ≠ none → Parent.container? c.parent ≠ none →
      exec i s = .next (g0.refusesAtEight l 0x11 tag n c k 0x19 [])) ∧
    ∀ (x : Half) (u : State) (st : Byte) (extra : List Byte), c.packed = true → loc = some x →
      Parent.container? c.parent = none →
      g0.enterCarrier l label x.toNat k.life (decide (c.hold ≠ 0))
        (decide (s.locOfParent c.parent ≠ some x.toNat)) = .refused u st extra →
      exec i s = .next (u.refusesAtEight l 0x11 tag n c k st extra)) ∧
  (∀ (s g0 : State) (l : Link) (tag : Byte) (label : Label) (stamp loc : Half) (n : Nat) (c k : Carrier) (i : Instr),
    i = .place l tag label stamp loc → s.grants l i = true → s.passes l label stamp.toNat (.carrier n) →
    s.carrier n = some c → k = (s.settled c).1 → g0 = ((s.stepEight l i (.carrier n)).settle n).1 →
    (Parent.container? c.parent ≠ none → exec i s = .next (g0.refusesAtEight l 0x12 tag n c k 0x19 [])) ∧
    (∀ (u : State) (st : Byte) (extra : List Byte), Parent.container? c.parent = none →
      g0.enterCarrier l label loc.toNat k.life (decide (c.hold ≠ 0))
        (decide (s.locOfParent c.parent ≠ some loc.toNat)) = .refused u st extra →
      exec i s = .next (u.refusesAtEight l 0x12 tag n c k st extra)) ∧
    ∀ (g : State) (z : Nat) (r : Residence), Parent.container? c.parent = none →
      g0.enterCarrier l label loc.toNat k.life (decide (c.hold ≠ 0))
        (decide (s.locOfParent c.parent ≠ some loc.toNat)) = .admitted g z →
      r = { parent := some (.place z loc.toNat), packed := c.packed, zone := some z,
            mode := s.modeIn (some z) c.packed } →
      (s.locOfParent c.parent ≠ some loc.toNat →
        ∃ t d, exec i s = .next t ∧ t.carrier n = some d ∧ d.parent = r.parent ∧ d.packed = c.packed ∧
          d.zone = some z ∧ d.mode = r.mode ∧ d.stamp = nextStamp c.stamp ∧ d.hold = c.hold ∧
          g.carrierMoved t n c r false d ∧
          t.claims = (s.stepEight l i (.carrier n)).claims ∧ (∀ m, m ≠ n → t.carrier m = s.carrier m) ∧ s.airKept t ∧ s.movesOnly t ∧
          (t.link l).hand =
            some (.replying
              ([0x92, tag, 0x00] ++ u16 (nextStamp c.stamp) ++ [lifeCode d.life] ++ orNone (some z) ++
                [modeCode d.mode]))) ∧
      (s.locOfParent c.parent = some loc.toNat →
        ∃ t d, exec i s = .next t ∧ t.carrier n = some d ∧
          d =
            { k with
              stamp := if c.life ≠ k.life ∨ c.bakeCount ≠ k.bakeCount then nextStamp c.stamp else c.stamp } ∧
          t.alerts = g.alerts ∧ t.overflow = g.overflow ∧ t.zones = g.zones ∧ t.capture = g.capture ∧
          t.moreFaults = g.moreFaults ∧ t.watch = g.watch ∧ t.claims = (s.stepEight l i (.carrier n)).claims ∧
          (∀ m, m ≠ n → t.carrier m = s.carrier m) ∧ s.airKept t ∧ s.movesOnly t ∧
          (t.link l).hand =
            some (.replying
              ([0x92, tag, 0x00] ++ u16 d.stamp ++ [lifeCode d.life] ++ orNone d.zone ++ [modeCode d.mode])))) ∧
  ∀ (s g0 : State) (l : Link) (tag : Byte) (label : Label) (stamp : Option Half) (n : Nat) (c k : Carrier)
    (r : Residence) (i : Instr),
    i = .pack l tag label stamp → s.grants l i = true → s.passes l label (stampOperand stamp) (.carrier n) →
    s.carrier n = some c → k = (s.settled c).1 → g0 = ((s.stepEight l i (.carrier n)).settle n).1 →
    r = { parent := c.parent, packed := true, zone := c.zone, mode := .still } →
    (c.packed = true → exec i s = .next (g0.refusesAtEight l 0x13 tag n c k 0x18 [])) ∧
    (c.packed = false →
      ∃ t d, exec i s = .next t ∧ t.carrier n = some d ∧ d.parent = c.parent ∧ d.packed = true ∧ d.zone = c.zone ∧
        d.mode = .still ∧ d.stamp = nextStamp c.stamp ∧ d.hold = c.hold ∧ g0.carrierMoved t n c r false d ∧
        t.claims = (s.stepEight l i (.carrier n)).claims ∧
        (∀ m, m ≠ n → t.carrier m = s.carrier m) ∧ s.airKept t ∧ s.movesOnly t ∧
        (t.link l).hand =
          some (.replying
            ([0x93, tag, 0x00] ++ u16 (nextStamp c.stamp) ++ [lifeCode d.life] ++ orNone c.zone ++ [0])))

/-! Containers and batches (chapters 5 and 7) -/

/-- Accepting a batch (R102, R124, R125): the next number, a record at the end of the queue with its steps, and the
in-transit mark on every item of the scope. -/
def Obligations.BatchIsAccepted : Prop :=
  ∀ (s t : State) (job : BatchJob) (l : Link) (walk containers : List Nat), t = s.acceptBatch job l walk containers →
    t.nextBatch = (s.nextBatch + 1) % 256 ∧
    t.batches =
      s.batches ++
        [{ number := s.nextBatch
           job := job
           link := l
           total := (match job with
             | .revision _ => 4096
             | _ => walk.length + 1)
           done := 0
           leftBehind := 0
           walk := walk
           carriers := walk
           containers := containers }] ∧
    (∀ n ∈ walk, t.carrier n = (s.carrier n).map fun c => { c with inTransit := true }) ∧
    (∀ n, n ∉ walk → t.carrier n = s.carrier n) ∧
    (∀ n ∈ containers, t.container n = (s.container n).map fun c => { c with inTransit := true }) ∧
    (∀ n, n ∉ containers → t.container n = s.container n) ∧
    t =
      { s with
        batches := t.batches
        nextBatch := t.nextBatch
        carriers := t.carriers
        containers := t.containers }

/-- OPEN, PACK and PLACE of a container (R100, R101, R126): an UNPACK, PACK or MOVE batch over its subtree and a QUEUED
reply, or a refusal in the rules' order, BUSY for an item in transit and FULL for a full queue among them (R125); a PLACE
where it stands is DONE and queues nothing. -/
def Obligations.ContainerBatches : Prop :=
  (∀ (s : State) (l : Link) (tag : Byte) (label : Label) (stamp : Option Half) (loc : Option Half) (n : Nat) (i : Instr),
    i = .openItem l tag label stamp loc → s.grants l i = true → s.passes l label (stampOperand stamp) (.container n) →
    (loc ≠ none → exec i s =
      .next ((s.stepEight l i (.container n)).ends l 0x11 tag ([0x11] ++ u16 (s.stampOf (.container n)) ++ [0xFF]))) ∧
    (loc = none → s.packedFlag n = false → exec i s =
      .next ((s.stepEight l i (.container n)).ends l 0x11 tag ([0x18] ++ u16 (s.stampOf (.container n)) ++ [0xFF]))) ∧
    (loc = none → s.packedFlag n = true → s.subtreeInTransit n = true → exec i s =
      .next ((s.stepEight l i (.container n)).ends l 0x11 tag ([0x20] ++ u16 (s.stampOf (.container n)) ++ [0xFF]))) ∧
    (loc = none → s.packedFlag n = true → s.subtreeInTransit n = false → 8 ≤ s.batches.length → exec i s =
      .next ((s.stepEight l i (.container n)).ends l 0x11 tag ([0x15] ++ u16 (s.stampOf (.container n)) ++ [0xFF]))) ∧
    (loc = none → s.packedFlag n = true → s.subtreeInTransit n = false → s.batches.length < 8 → exec i s =
      .next
        (((s.stepEight l i (.container n)).acceptBatch (.unpack n) l (s.subCarriers n) (s.subContainers n)).ends l 0x11
          tag ([0x01] ++ u16 (s.stampOf (.container n)) ++ [0xFF] ++ u8 s.nextBatch)))) ∧
  (∀ (s : State) (l : Link) (tag : Byte) (label : Label) (stamp : Option Half) (n : Nat) (i : Instr),
    i = .pack l tag label stamp → s.grants l i = true → s.passes l label (stampOperand stamp) (.container n) →
    (s.packedFlag n = true → exec i s =
      .next ((s.stepEight l i (.container n)).ends l 0x13 tag ([0x18] ++ u16 (s.stampOf (.container n)) ++ [0xFF]))) ∧
    (s.packedFlag n = false → s.subtreeInTransit n = true → exec i s =
      .next ((s.stepEight l i (.container n)).ends l 0x13 tag ([0x20] ++ u16 (s.stampOf (.container n)) ++ [0xFF]))) ∧
    (s.packedFlag n = false → s.subtreeInTransit n = false → 8 ≤ s.batches.length → exec i s =
      .next ((s.stepEight l i (.container n)).ends l 0x13 tag ([0x15] ++ u16 (s.stampOf (.container n)) ++ [0xFF]))) ∧
    (s.packedFlag n = false → s.subtreeInTransit n = false → s.batches.length < 8 → exec i s =
      .next
        (((s.stepEight l i (.container n)).acceptBatch (.pack n) l (s.subCarriers n) (s.subContainers n)).ends l 0x13
          tag ([0x01] ++ u16 (s.stampOf (.container n)) ++ [0xFF] ++ u8 s.nextBatch)))) ∧
  ∀ (s : State) (l : Link) (tag : Byte) (label : Label) (stamp loc : Half) (n : Nat) (i : Instr),
    i = .place l tag label stamp loc → s.grants l i = true → s.passes l label stamp.toNat (.container n) →
    (s.parentOf n ≠ none → exec i s =
      .next ((s.stepEight l i (.container n)).ends l 0x12 tag ([0x19] ++ u16 (s.stampOf (.container n)) ++ [0xFF]))) ∧
    (s.parentOf n = none → s.mapLoc loc.toNat = none → exec i s =
      .next
        (((s.stepEight l i (.container n)).raiseFault .unmapped (linkSource l) (some label) (some loc.toNat) none).ends l
          0x12 tag ([0x17] ++ u16 (s.stampOf (.container n)) ++ [0xFF]))) ∧
    ∀ z, s.parentOf n = none → s.mapLoc loc.toNat = some z →
      (s.locOfParent ((s.container n).bind (·.parent)) = some loc.toNat → exec i s =
        .next ((s.stepEight l i (.container n)).ends l 0x12 tag ([0x00] ++ u16 (s.stampOf (.container n)) ++ [0xFF]))) ∧
      (s.locOfParent ((s.container n).bind (·.parent)) ≠ some loc.toNat → s.subtreeInTransit n = true → exec i s =
        .next ((s.stepEight l i (.container n)).ends l 0x12 tag ([0x20] ++ u16 (s.stampOf (.container n)) ++ [0xFF]))) ∧
      (s.locOfParent ((s.container n).bind (·.parent)) ≠ some loc.toNat → s.subtreeInTransit n = false →
        8 ≤ s.batches.length → exec i s =
        .next ((s.stepEight l i (.container n)).ends l 0x12 tag ([0x15] ++ u16 (s.stampOf (.container n)) ++ [0xFF]))) ∧
      (s.locOfParent ((s.container n).bind (·.parent)) ≠ some loc.toNat → s.subtreeInTransit n = false →
        s.batches.length < 8 →
        ((s.zone z).evacuating = true → exec i s =
          .next ((s.stepEight l i (.container n)).ends l 0x12 tag ([0x20] ++ u16 (s.stampOf (.container n)) ++ [0xFF]))) ∧
        ((s.zone z).evacuating = false → exec i s =
          .next
            (((s.stepEight l i (.container n)).acceptBatch
                (.move n ((s.container n).bind (·.zone)) z loc.toNat) l (s.subCarriers n) (s.subContainers n)).ends l 0x12
              tag
              ([0x01] ++ u16 (s.stampOf (.container n)) ++ [0xFF] ++ u8 s.nextBatch ++ u8 z ++
                yes (s.zone z).cfg.gated ++ u16 (s.forecast z (s.subCarriers n))))))

/-- NEST (R94 to R96): a carrier goes in at once, its mode that of its new chain; a container goes in at once unless its
effective packing changes over carriers below it, and then by a REPARENT batch. Each is refused by the first of R94's
eight conditions that fails, a carrier's settle standing (R70). A container's join sets the depths of the containers
below it and raises the subtree counts of the target and of every container above it (R90). That BAKE_REFUSED needs a
change of mode is the model's choice (log entry 14). -/
def Obligations.NestPutsIn : Prop :=
  (∀ (s : State) (l : Link) (tag : Byte) (label target : Label) (stamp : Option Half) (n x z : Nat) (c : Carrier)
    (i : Instr),
    i = .nest l tag label target stamp → s.grants l i = true → s.passes l label (stampOperand stamp) (.carrier n) →
    s.find target = some (.container x) → s.inTransit (.container x) = false → s.otherClaim l (.container x) = none →
    s.carrier n = some c → Parent.container? c.parent = none → c.zone = some z →
    s.itemZone (.container x) = some z → (∀ m ∈ (s.chain x).drop 1, s.inTransit (.container m) = false) →
    (s.members x).length < 64 → (∀ m ∈ s.chain x, s.subtreeCount m + 1 ≤ 256) → (s.chain x).Nodup →
    ∃ t d, exec i s = .next t ∧ t.carrier n = some d ∧ d.parent = some (.container x) ∧ d.packed = c.packed ∧
      d.zone = some z ∧ d.mode = s.modeUnder (some (.container x)) (some z) c.packed ∧ d.stamp = nextStamp c.stamp ∧
      (((s.stepEight l i (.carrier n)).reloadClaim l (.container x)).settle n).1.carrierMoved t n c
        { parent := some (.container x), packed := c.packed, zone := some z,
          mode := s.modeUnder (some (.container x)) (some z) c.packed } false d ∧
      t.members x = s.members x ++ [.carrier n] ∧ t.stampOf (.container x) = s.stampOf (.container x) ∧
      (∀ m ∈ s.chain x, s.container m ≠ none → t.subtreeCount m = s.subtreeCount m + 1) ∧
      (∀ m, m ∉ s.chain x → t.container m = s.container m) ∧ (∀ m, m ≠ n → t.carrier m = s.carrier m) ∧
      s.airKept t ∧ t.batches = s.batches ∧ s.containsOnly t ∧
      (t.link l).hand =
        some (.replying
          ([0x94, tag, 0x00] ++ u16 (nextStamp c.stamp) ++ [lifeCode d.life] ++ orNone (some z) ++
            [modeCode d.mode]))) ∧
  (∀ (s g : State) (l : Link) (tag : Byte) (label target : Label) (stamp : Option Half) (x t z : Nat) (i : Instr),
    i = .nest l tag label target stamp → s.grants l i = true → s.passes l label (stampOperand stamp) (.container x) →
    s.find target = some (.container t) → s.inTransit (.container t) = false → s.otherClaim l (.container t) = none →
    s.parentOf x = none → s.itemZone (.container x) = some z → s.itemZone (.container t) = some z →
    t ∉ s.subContainers x → (∀ m ∈ (s.chain t).drop 1, s.inTransit (.container m) = false) →
    s.subtreeInTransit x = false → (s.members t).length < 64 →
    (∀ m ∈ s.chain t, s.subtreeCount m + s.subtreeCount x ≤ 256) →
    ((s.container t).map (·.depth)).getD 0 + s.height x ≤ 3 →
    g = (s.stepEight l i (.container x)).reloadClaim l (.container t) →
    (s.packedFlag x = true ∨ s.effectivelyPacked t = false ∨ s.subtreeCount x = 0 →
      exec i s =
        .next
          ((g.joinContainer x t).ends l 0x14 tag
            ([0x00] ++ u16 (nextStamp (s.stampOf (.container x))) ++ [0xFF]))) ∧
    (s.packedFlag x = false → s.effectivelyPacked t = true → 0 < s.subtreeCount x →
      (s.batches.length < 8 →
        exec i s =
          .next
            ((g.acceptBatch (.nesting x t) l (s.subCarriers x) (s.subContainers x ++ s.chain t)).ends l 0x14 tag
              ([0x01] ++ u16 (s.stampOf (.container x)) ++ [0xFF] ++ u8 s.nextBatch))) ∧
      (8 ≤ s.batches.length →
        exec i s = .next (g.ends l 0x14 tag ([0x15] ++ u16 (s.stampOf (.container x)) ++ [0xFF]))))) ∧
  (∀ (s g : State) (l : Link) (tag : Byte) (label target : Label) (stamp : Option Half) (n : Nat) (c k : Carrier)
    (ta : Item) (i : Instr),
    i = .nest l tag label target stamp → s.grants l i = true → s.passes l label (stampOperand stamp) (.carrier n) →
    s.find target = some ta → s.inTransit ta = false → s.otherClaim l ta = none → s.carrier n = some c →
    k = (s.settled c).1 → g = (((s.stepEight l i (.carrier n)).reloadClaim l ta).settle n).1 →
    (∀ m, ta = .carrier m → exec i s = .next (g.refusesAtEight l 0x14 tag n c k 0x18 [])) ∧
    ∀ x, ta = .container x →
      (Parent.container? c.parent ≠ none → exec i s = .next (g.refusesAtEight l 0x14 tag n c k 0x19 [])) ∧
      (Parent.container? c.parent = none → c.zone = none ∨ c.zone ≠ s.itemZone (.container x) →
        exec i s = .next (g.refusesAtEight l 0x14 tag n c k 0x2A [])) ∧
      (Parent.container? c.parent = none → c.zone ≠ none → c.zone = s.itemZone (.container x) →
        ((∃ m ∈ (s.chain x).drop 1, s.inTransit (.container m) = true) →
          exec i s = .next (g.refusesAtEight l 0x14 tag n c k 0x20 [])) ∧
        ((∀ m ∈ (s.chain x).drop 1, s.inTransit (.container m) = false) →
          64 ≤ (s.members x).length ∨ (∃ m ∈ s.chain x, 256 < s.subtreeCount m + 1) →
          exec i s = .next (g.refusesAtEight l 0x14 tag n c k 0x1A [])))) ∧
  (∀ (s g : State) (l : Link) (tag : Byte) (label target : Label) (stamp : Option Half) (x : Nat) (ta : Item) (i : Instr)
    (no : Byte → State),
    i = .nest l tag label target stamp → s.grants l i = true → s.passes l label (stampOperand stamp) (.container x) →
    s.find target = some ta → s.inTransit ta = false → s.otherClaim l ta = none →
    g = (s.stepEight l i (.container x)).reloadClaim l ta →
    (∀ st, no st = g.ends l 0x14 tag (st :: u16 (s.stampOf (.container x)) ++ [0xFF])) →
    (∀ m, ta = .carrier m → exec i s = .next (no 0x18)) ∧
    ∀ t, ta = .container t →
      (s.parentOf x ≠ none → exec i s = .next (no 0x19)) ∧
      (s.parentOf x = none →
        s.itemZone (.container x) = none ∨ s.itemZone (.container x) ≠ s.itemZone (.container t) →
        exec i s = .next (no 0x2A)) ∧
      (s.parentOf x = none → s.itemZone (.container x) ≠ none →
        s.itemZone (.container x) = s.itemZone (.container t) →
        (t ∈ s.subContainers x → exec i s = .next (no 0x18)) ∧
        (t ∉ s.subContainers x →
          ((∃ m ∈ (s.chain t).drop 1, s.inTransit (.container m) = true) ∨ s.subtreeInTransit x = true →
            exec i s = .next (no 0x20)) ∧
          ((∀ m ∈ (s.chain t).drop 1, s.inTransit (.container m) = false) → s.subtreeInTransit x = false →
            64 ≤ (s.members t).length ∨ (∃ m ∈ s.chain t, 256 < s.subtreeCount m + s.subtreeCount x) ∨
              3 < ((s.container t).map (·.depth)).getD 0 + s.height x →
            exec i s = .next (no 0x1A))))) ∧
  ∀ (s u : State) (x t : Nat) (cx ct : Container), s.container x = some cx → s.container t = some ct → x ≠ t →
    x ∉ s.chain t → (s.chain t).Nodup → (s.subContainers x).Nodup → t ∉ s.subContainers x →
    u = s.joinContainer x t →
    ((u.container x).map fun c => (c.parent, c.zone, c.packed, c.members, c.depth, c.stamp)) =
        some (some (.container t), cx.zone, cx.packed, cx.members, ct.depth + 1, nextStamp cx.stamp) ∧
      u.members t = ct.members ++ [.container x] ∧ u.stampOf (.container t) = ct.stamp ∧
      u.subtreeCount t = ct.subtree + cx.subtree ∧ u.carriers = s.carriers ∧
      (∀ m, Item.container m ∈ cx.members →
        (u.container m).map (·.depth) = (s.container m).map fun _ => ct.depth + 2) ∧
      (∀ m q, Item.container m ∈ cx.members → Item.container q ∈ s.members m →
        (u.container q).map (·.depth) = (s.container q).map fun _ => ct.depth + 3) ∧
      (∀ m ∈ s.subContainers x, m ≠ x → m ∉ s.chain t →
        u.container m = (s.container m).map fun c => { c with depth := ((u.container m).map (·.depth)).getD 0 }) ∧
      (∀ m ∈ s.chain t, m ≠ t → m ∉ s.subContainers x →
        u.container m = (s.container m).map fun c => { c with subtree := c.subtree + cx.subtree }) ∧
      (∀ m, m ∉ s.chain t → m ∉ s.subContainers x → u.container m = s.container m) ∧
      u = { s with containers := u.containers }

/-- UNNEST (R97 to R99): a carrier comes out at once to its chain's place, its mode that of its own packing; a container
comes out at once unless its effective packing changes over carriers below it, and then by a REPARENT batch. Each is
refused by the first of R97's conditions that fails, a carrier's settle standing (R70). A container's leaving sets the
depths of the containers below it and lowers the subtree counts of the old parent and of every container above it
(R90). That BAKE_REFUSED needs a change of mode is the model's choice (log entry 14). -/
def Obligations.UnnestTakesOut : Prop :=
  (∀ (s : State) (l : Link) (tag : Byte) (label : Label) (stamp : Option Half) (n p : Nat) (c : Carrier) (i : Instr),
    i = .unnest l tag label stamp → s.grants l i = true → s.passes l label (stampOperand stamp) (.carrier n) →
    s.carrier n = some c → c.parent = some (.container p) → s.otherClaim l (.container p) = none →
    (∀ m ∈ s.chain p, s.inTransit (.container m) = false) → (s.chain p).Nodup →
    ¬((s.settled c).1.life = .spent ∧ s.modeIn c.zone c.packed = .bake ∧ c.mode ≠ .bake) →
    ∃ t d, exec i s = .next t ∧ t.carrier n = some d ∧ d.parent = s.placeParent p ∧ d.packed = c.packed ∧
      d.zone = c.zone ∧ d.mode = s.modeIn c.zone c.packed ∧ d.stamp = nextStamp c.stamp ∧
      (∀ g : State, g = ((s.stepEight l i (.carrier n)).settle n).1.reloadClaim l (.container p) →
        ((g.dropMember p (.carrier n)).subSubtree (g.chain p) 1).carrierMoved t n c
          { parent := s.placeParent p, packed := c.packed, zone := c.zone, mode := s.modeIn c.zone c.packed } false d) ∧
      t.members p = (s.members p).filter (fun m => m ≠ .carrier n) ∧
      (∀ m ∈ s.chain p, t.subtreeCount m = s.subtreeCount m - 1) ∧
      (∀ m, m ∉ s.chain p → t.container m = s.container m) ∧ (∀ m, m ≠ n → t.carrier m = s.carrier m) ∧
      s.airKept t ∧ t.batches = s.batches ∧ s.containsOnly t ∧
      (t.link l).hand =
        some (.replying
          ([0x95, tag, 0x00] ++ u16 (nextStamp c.stamp) ++ [lifeCode d.life] ++ orNone c.zone ++ [modeCode d.mode]))) ∧
  (∀ (s g : State) (l : Link) (tag : Byte) (label : Label) (stamp : Option Half) (x p : Nat) (i : Instr),
    i = .unnest l tag label stamp → s.grants l i = true → s.passes l label (stampOperand stamp) (.container x) →
    s.parentOf x = some p → s.otherClaim l (.container p) = none →
    (∀ m ∈ s.chain p, s.inTransit (.container m) = false) → s.subtreeInTransit x = false →
    g = (s.stepEight l i (.container x)).reloadClaim l (.container p) →
    (s.packedFlag x = true ∨ s.effectivelyPacked p = false ∨ s.subtreeCount x = 0 →
      exec i s =
        .next
          ((g.leaveContainer x).ends l 0x15 tag ([0x00] ++ u16 (nextStamp (s.stampOf (.container x))) ++ [0xFF]))) ∧
    (s.packedFlag x = false → s.effectivelyPacked p = true → 0 < s.subtreeCount x →
      (s.batches.length < 8 →
        exec i s =
          .next
            ((g.acceptBatch (.unnesting x) l (s.subCarriers x) (s.subContainers x ++ s.chain p)).ends l 0x15 tag
              ([0x01] ++ u16 (s.stampOf (.container x)) ++ [0xFF] ++ u8 s.nextBatch))) ∧
      (8 ≤ s.batches.length →
        exec i s = .next (g.ends l 0x15 tag ([0x15] ++ u16 (s.stampOf (.container x)) ++ [0xFF]))))) ∧
  (∀ (s g0 g : State) (l : Link) (tag : Byte) (label : Label) (stamp : Option Half) (n p : Nat) (c k : Carrier)
    (i : Instr),
    i = .unnest l tag label stamp → s.grants l i = true → s.passes l label (stampOperand stamp) (.carrier n) →
    s.carrier n = some c → c.parent = some (.container p) → k = (s.settled c).1 →
    g0 = ((s.stepEight l i (.carrier n)).settle n).1 → g = g0.reloadClaim l (.container p) →
    (∀ q, s.claimOf (.container p) = some q → q.link ≠ l →
      exec i s = .next (g0.refusesAtEight l 0x15 tag n c k 0x21 [linkCode q.link])) ∧
    (s.otherClaim l (.container p) = none → (∃ m ∈ s.chain p, s.inTransit (.container m) = true) →
      exec i s = .next (g.refusesAtEight l 0x15 tag n c k 0x20 [])) ∧
    (s.otherClaim l (.container p) = none → (∀ m ∈ s.chain p, s.inTransit (.container m) = false) →
      k.life = .spent → s.modeIn c.zone c.packed = .bake → c.mode ≠ .bake →
      exec i s = .next (g.refusesAtEight l 0x15 tag n c k 0x28 [1]))) ∧
  (∀ (s : State) (l : Link) (tag : Byte) (label : Label) (stamp : Option Half) (x : Nat) (i : Instr),
    i = .unnest l tag label stamp → s.grants l i = true → s.passes l label (stampOperand stamp) (.container x) →
    (s.parentOf x = none →
      exec i s =
        .next ((s.stepEight l i (.container x)).ends l 0x15 tag ([0x18] ++ u16 (s.stampOf (.container x)) ++ [0xFF]))) ∧
    ∀ p, s.parentOf x = some p →
      (∀ q, s.claimOf (.container p) = some q → q.link ≠ l →
        exec i s =
          .next
            ((s.stepEight l i (.container x)).ends l 0x15 tag
              ([0x21] ++ u16 (s.stampOf (.container x)) ++ [0xFF, linkCode q.link]))) ∧
      (s.otherClaim l (.container p) = none →
        (∃ m ∈ s.chain p, s.inTransit (.container m) = true) ∨ s.subtreeInTransit x = true →
        exec i s =
          .next
            (((s.stepEight l i (.container x)).reloadClaim l (.container p)).ends l 0x15 tag
              ([0x20] ++ u16 (s.stampOf (.container x)) ++ [0xFF])))) ∧
  (∀ (s u : State) (x p : Nat) (cx cp : Container), s.container x = some cx → s.parentOf x = some p →
    s.container p = some cp → x ∉ s.chain p → (s.chain p).Nodup → (s.subContainers x).Nodup → p ∉ s.subContainers x →
    u = s.leaveContainer x →
    ((u.container x).map fun c => (c.parent, c.zone, c.packed, c.members, c.depth, c.stamp)) =
        some (s.placeParent p, cx.zone, cx.packed, cx.members, 1, nextStamp cx.stamp) ∧
      u.members p = cp.members.filter (fun m => m ≠ .container x) ∧ u.subtreeCount p = cp.subtree - cx.subtree ∧
      (∀ m, Item.container m ∈ cx.members → (u.container m).map (·.depth) = (s.container m).map fun _ => 2) ∧
      (∀ m q, Item.container m ∈ cx.members → Item.container q ∈ s.members m →
        (u.container q).map (·.depth) = (s.container q).map fun _ => 3) ∧
      (∀ m ∈ s.subContainers x, m ≠ x → m ∉ s.chain p →
        u.container m = (s.container m).map fun c => { c with depth := ((u.container m).map (·.depth)).getD 0 }) ∧
      (∀ m ∈ s.chain p, m ≠ p → m ∉ s.subContainers x →
        u.container m = (s.container m).map fun c => { c with subtree := c.subtree - cx.subtree }) ∧
      (∀ m, m ∉ s.chain p → m ∉ s.subContainers x → u.container m = s.container m) ∧
      u.carriers = s.carriers ∧ u = { s with containers := u.containers }) ∧
  ∀ (s : State) (l : Link) (tag : Byte) (label : Label) (stamp : Option Half) (n : Nat) (c : Carrier) (i : Instr),
    i = .unnest l tag label stamp → s.grants l i = true → s.passes l label (stampOperand stamp) (.carrier n) →
    s.carrier n = some c → Parent.container? c.parent = none →
    exec i s =
      .next
        (((s.stepEight l i (.carrier n)).settleStamped n).ends l 0x15 tag
          (0x18 :: (u16 (((s.stepEight l i (.carrier n)).settleStamped n).stampOf (.carrier n)) ++
            [lifeCode (s.settled c).1.life])))

/-! Retiring, holding, evacuating (chapters 4, 5, 7) -/

/-- RETIRE, HOLD and UNHOLD (R46, R83 to R85, R93, R173): a retired carrier is settled, reported and freed with its
keys, its zone's resident and status counts, its membership, claim and label; every alert in the queue after the settle
stays there, those of the item marked as of a retired one; a container is retired only when empty, its zone's count
falling; a hold reason is set or cleared with one advance of the stamp, and containers take none. That the DONE of these requests carries no
residence zone and mode is the model's choice (log entry 38). -/
def Obligations.RetireAndHold : Prop :=
  (∀ (s : State) (tag : Byte) (label : Label) (stamp : Option Half) (n : Nat) (c k : Carrier) (i : Instr),
    i = .retire .host tag label stamp → s.grants .host i = true →
    s.passes .host label (stampOperand stamp) (.carrier n) → s.carrier n = some c → tabWf s.carriers = true →
    k = (s.settled c).1 →
    ∃ t, exec i s = .next t ∧ t.carrier n = none ∧ (∀ m, m ≠ n → t.carrier m = s.carrier m) ∧
      t.directory = s.directory.filter (fun e => e.2 ≠ .carrier n) ∧ t.claimOf (.carrier n) = none ∧
      (∀ z, c.zone = some z →
        t.zone z =
          { s.zone z with
            residents := (s.zone z).residents - 1
            counts := (s.zone z).counts.sub c.life
            eList := (s.zone z).eList.filter fun e => e.slot ≠ n
            pList := (s.zone z).pList.filter fun e => e.slot ≠ n }) ∧
      (∀ m, c.zone ≠ some m → t.zone m = s.zone m) ∧ (t.cls c.cls).inUse = (s.cls c.cls).inUse - 1 ∧
      (∀ p, c.parent = some (.container p) → t.members p = (s.members p).filter fun m => m ≠ .carrier n) ∧
      (∀ p, c.parent = some (.container p) → (s.chain p).Nodup →
        ∀ m ∈ s.chain p, t.subtreeCount m = s.subtreeCount m - 1) ∧
      (Parent.container? c.parent = none → t.containers = s.containers) ∧
      t.alerts =
        ((s.stepEight .host i (.carrier n)).settle n).1.alerts.map (fun a =>
          match a.subject with
          | .item b _ => if b = .carrier n then { a with retired := true } else a
          | _ => a) ∧
      s.airKept t ∧
      t.hostLink.hand =
        some (.replying
          ([0x96, tag, 0x00] ++
            u16 (if c.life ≠ k.life ∨ c.bakeCount ≠ k.bakeCount then nextStamp c.stamp else c.stamp) ++
            [lifeCode k.life] ++ u32 k.base ++ u8 k.bakeCount)) ∧
      State.containsOnly { s with directory := t.directory, classes := t.classes } t) ∧
  (∀ (s : State) (tag : Byte) (label : Label) (stamp : Option Half) (n : Nat) (c : Container) (i : Instr),
    i = .retire .host tag label stamp → s.grants .host i = true →
    s.passes .host label (stampOperand stamp) (.container n) → s.container n = some c →
    (c.members ≠ [] → exec i s =
      .next ((s.stepEight .host i (.container n)).ends .host 0x16 tag ([0x1B] ++ u16 c.stamp ++ [0xFF]))) ∧
    (c.members = [] → tabWf s.containers = true →
      ∃ t, exec i s = .next t ∧ t.container n = none ∧
        t.directory = s.directory.filter (fun e => e.2 ≠ .container n) ∧ t.claimOf (.container n) = none ∧
        (∀ z, c.zone = some z → (t.zone z).containers = (s.zone z).containers - 1) ∧
        (∀ m, c.zone ≠ some m → t.zone m = s.zone m) ∧ t.carriers = s.carriers ∧
        (∀ p, c.parent = some (.container p) → p ≠ n →
          t.members p = (s.members p).filter fun m => m ≠ .container n) ∧
        t.alerts =
          s.alerts.map (fun a =>
            match a.subject with
            | .item b _ => if b = .container n then { a with retired := true } else a
            | _ => a) ∧
        t.hostLink.hand = some (.replying ([0x96, tag, 0x00] ++ u16 c.stamp ++ [0xFF])))) ∧
  (∀ (s : State) (tag reason : Byte) (label : Label) (stamp : Option Half) (n : Nat) (c k : Carrier) (i : Instr),
    i = .hold .host tag label reason stamp → s.grants .host i = true →
    s.passes .host label (stampOperand stamp) (.carrier n) → s.carrier n = some c → k = (s.settled c).1 →
    ∃ t, exec i s = .next t ∧
      (c.hold ≠ reason.toNat → t.carrier n = some { k with hold := reason.toNat, stamp := nextStamp c.stamp }) ∧
      (c.hold = reason.toNat →
        t.carrier n =
          some { k with
            stamp := if c.life ≠ k.life ∨ c.bakeCount ≠ k.bakeCount then nextStamp c.stamp else c.stamp }) ∧
      (∀ m, m ≠ n → t.carrier m = s.carrier m) ∧ s.airKept t ∧ s.movesOnly t ∧
      t.hostLink.hand =
        some (.replying ([0x97, tag, 0x00] ++ u16 (t.stampOf (.carrier n)) ++ [lifeCode k.life]))) ∧
  (∀ (s : State) (tag : Byte) (label : Label) (stamp : Option Half) (n : Nat) (c k : Carrier) (i : Instr),
    i = .unhold .host tag label stamp → s.grants .host i = true →
    s.passes .host label (stampOperand stamp) (.carrier n) → s.carrier n = some c → k = (s.settled c).1 →
    ∃ t, exec i s = .next t ∧
      (c.hold ≠ 0 → t.carrier n = some { k with hold := 0, stamp := nextStamp c.stamp } ∧
        t.hostLink.hand = some (.replying ([0x98, tag, 0x00] ++ u16 (nextStamp c.stamp) ++ [lifeCode k.life]))) ∧
      (c.hold = 0 →
        t.hostLink.hand =
          some (.replying ([0x98, tag, 0x18] ++ u16 (t.stampOf (.carrier n)) ++ [lifeCode k.life]))) ∧
      (∀ m, m ≠ n → t.carrier m = s.carrier m) ∧ s.airKept t ∧ s.movesOnly t) ∧
  ∀ (s : State) (tag reason : Byte) (label : Label) (stamp : Option Half) (n : Nat) (i : Instr),
    (i = .hold .host tag label reason stamp ∨ i = .unhold .host tag label stamp) → s.grants .host i = true →
    s.passes .host label (stampOperand stamp) (.container n) →
    exec i s =
      .next
        ((s.stepEight .host i (.container n)).ends .host (kindCode i) tag
          ([0x18] ++ u16 (s.stampOf (.container n)) ++ [0xFF]))

/-- EVACUATE (R47, R127): the refusals in order, DONE for a zone with nothing directly in it, else a batch over all that
stands in it and the zone's evacuating flag. -/
def Obligations.ZoneIsEvacuated : Prop :=
  ∀ (s : State) (tag zone : Byte) (loc : Half) (z : Nat) (i : Instr) (walk cs : List Nat) (no : Byte → State),
    i = .evacuate .host tag zone loc → s.grants .host i = true → z = zone.toNat →
    walk = s.evacuationWalk z → cs = s.evacuationContainers z →
    (∀ st, no st = (s.granted .host i).ends .host 0x19 tag [st]) →
    (s.quiesce ≠ .active → exec i s = .next (no 0x23)) ∧
    (s.quiesce = .active → (s.zone z).cfg.active = false → exec i s = .next (no 0x18)) ∧
    (s.quiesce = .active → (s.zone z).cfg.active = true → s.mapLoc loc.toNat = none →
      exec i s =
        .next
          (((s.granted .host i).raiseFault .unmapped .hostLink none (some loc.toNat) none).ends .host 0x19 tag [0x17])) ∧
    ∀ t, s.quiesce = .active → (s.zone z).cfg.active = true → s.mapLoc loc.toNat = some t →
      (t = z → exec i s = .next (no 0x18)) ∧
      (t ≠ z → (s.zone t).evacuating = true ∨ s.isBatchTarget z = true → exec i s = .next (no 0x20)) ∧
      (t ≠ z → (s.zone t).evacuating = false → s.isBatchTarget z = false →
        (s.directCarriers z = [] → s.directContainers z = [] → exec i s = .next (no 0x00)) ∧
        ((s.directCarriers z ≠ [] ∨ s.directContainers z ≠ []) → 8 ≤ s.batches.length → exec i s = .next (no 0x15)) ∧
        ((s.directCarriers z ≠ [] ∨ s.directContainers z ≠ []) → s.batches.length < 8 →
          ((∃ n ∈ walk, s.inTransit (.carrier n) = true) ∨ (∃ n ∈ cs, s.inTransit (.container n) = true) →
            exec i s = .next (no 0x20)) ∧
          ((∀ n ∈ walk, s.inTransit (.carrier n) = false) → (∀ n ∈ cs, s.inTransit (.container n) = false) →
            ∃ u, exec i s = .next (u.ends .host 0x19 tag
                ([0x01] ++ u8 s.nextBatch ++ u8 t ++ yes (s.zone t).cfg.gated ++ u16 (s.forecast t walk))) ∧
              u = ((s.granted .host i).acceptBatch (.evacuate z t loc.toNat) .host walk cs).setZone z
                { s.zone z with evacuating := true })))

/-! Reading (chapters 1 to 5, 7) -/

/-- LOOKUP, ZONEINFO, RESIDENTS, BATCHINFO and CLASSINFO (R48, R58, R86, R87, R104, R118, R141): a LOOKUP of a carrier
settles it, ZONEINFO clears the door events it reports, and nothing else changes. The layouts of these replies (log entry
16) and the number of entries one of them returns, the greatest that fits in 240 bytes (log entry 28), are the model's
choice. -/
def Obligations.QueriesRead : Prop :=
  (∀ (s : State) (l : Link) (tag : Byte) (label : Label) (start : Option Byte) (i : Instr),
    i = .lookup l tag label start → s.grants l i = true →
    (s.find label = none → exec i s = .next ((s.granted l i).ends l 0x20 tag [0x13])) ∧
    (∀ (n : Nat) (c : Carrier) (u : State), s.find label = some (.carrier n) → u = (s.granted l i).settleStamped n →
      u.carrier n = some c →
      exec i s = .next (u.ends l 0x20 tag ([0x00] ++ u16 c.stamp ++ [lifeCode c.life] ++ u.encCarrier n c))) ∧
    ∀ (n : Nat) (c : Container), s.find label = some (.container n) → s.container n = some c →
      exec i s =
        .next
          ((s.granted l i).ends l 0x20 tag
            ([0x00] ++ u16 c.stamp ++ [0xFF] ++ s.encContainer n c (start.getD 0).toNat))) ∧
  (∀ (s : State) (l : Link) (tag zone : Byte), s.grants l (.zoneInfo l tag zone) = true →
    exec (.zoneInfo l tag zone) s =
      .next
        (((s.granted l (.zoneInfo l tag zone)).setZone zone.toNat { s.zone zone.toNat with doorEvents := 0 }).ends l 0x21
          tag (0x00 :: encZone s.grid (s.zone zone.toNat)))) ∧
  (∀ (s : State) (tag zone : Byte) (start : Half) (i : Instr) (rs : List (Nat × Carrier)) (n : Nat)
    (body : Nat → List Byte),
    i = .residents .host tag zone start → s.grants .host i = true →
    rs = s.carriers.filter (fun e => decide (e.2.zone = some zone.toNat) && decide (start.toNat ≤ e.1)) →
    n = s.residentsCount zone.toNat start.toNat →
    (∀ m, body m =
      [0x00] ++ u16 (s.zone zone.toNat).residents ++ encList ((rs.take m).map s.encResident) ++
        opt u16 (if m < rs.length then ((rs.take m).getLast?).map (·.1 + 1) else none)) →
    n ≤ 16 ∧ n ≤ rs.length ∧ n = fitCount (fun m => 2 + (body m).length) (min 16 rs.length) ∧
      exec i s = .next ((s.granted .host i).ends .host 0x22 tag (body n))) ∧
  (∀ (s : State) (tag : Byte) (start : Option Byte) (i : Instr) (bs : List Batch) (n : Nat) (body : Nat → List Byte),
    i = .batchInfo .host tag start → s.grants .host i = true → bs = s.batches.drop (start.getD 0).toNat →
    n = s.batchesCount (start.getD 0).toNat →
    (∀ m, body m =
      [0x00, quiesceCode s.quiesce] ++ u8 s.batches.length ++ u8 s.nextBatch ++ encList ((bs.take m).map s.encBatch) ++
        opt u8
          (if (start.getD 0).toNat + (bs.take m).length < s.batches.length then
            some ((start.getD 0).toNat + (bs.take m).length)
          else none)) →
    n ≤ bs.length ∧ n = fitCount (fun m => 2 + (body m).length) bs.length ∧
      exec i s = .next ((s.granted .host i).ends .host 0x23 tag (body n))) ∧
  (∀ (bodyLength : Nat → Nat) (bound : Nat),
    fitCount bodyLength bound ≤ bound ∧
      (fitCount bodyLength bound ≠ 0 → bodyLength (fitCount bodyLength bound) ≤ 240) ∧
      ∀ m, fitCount bodyLength bound < m → m ≤ bound → 240 < bodyLength m) ∧
  ∀ (s : State) (tag cls : Byte), s.grants .host (.classInfo .host tag cls) = true →
    exec (.classInfo .host tag cls) s =
      .next
        ((s.granted .host (.classInfo .host tag cls)).ends .host 0x24 tag (0x00 :: encClass (s.cls cls.toNat)))

/-! Classes (chapter 3) -/

/-- SETCLASS (R50, R52 to R57): DEFINE, REVISE and UNDEFINE with their refusals in order; a revision of a class in use
stores the values at once and queues a CLASS_REVISION batch. -/
def Obligations.ClassIsSet : Prop :=
  (∀ (s : State) (tag cls : Byte) (f : ClassFields) (i : Instr),
    (i = .setClassDefine .host tag cls f ∨ i = .setClassRevise .host tag cls f ∨ i = .setClassUndefine .host tag cls) →
    s.takes .host i = true → s.quiesce ≠ .active → exec i s = .next (s.replies .host 0x31 tag [0x23])) ∧
  (∀ (s : State) (tag cls : Byte) (f : ClassFields) (i : Instr), i = .setClassDefine .host tag cls f →
    s.grants .host i = true → s.quiesce = .active →
    ((s.cls cls.toNat).values ≠ none → exec i s = .next ((s.granted .host i).ends .host 0x31 tag [0x14])) ∧
    ((s.cls cls.toNat).values = none →
      exec i s =
        .next
          (((s.granted .host i).setCls cls.toNat { s.cls cls.toNat with values := some (classValuesOf f) }).ends .host
            0x31 tag [0x00]))) ∧
  (∀ (s : State) (tag cls : Byte) (f : ClassFields) (i : Instr), i = .setClassRevise .host tag cls f →
    s.grants .host i = true → s.quiesce = .active →
    ((s.cls cls.toNat).values = none → exec i s = .next ((s.granted .host i).ends .host 0x31 tag [0x16])) ∧
    ((s.cls cls.toNat).values = some (classValuesOf f) →
      exec i s = .next ((s.granted .host i).ends .host 0x31 tag [0x00])) ∧
    ∀ old, (s.cls cls.toNat).values = some old → old ≠ classValuesOf f →
      ((s.cls cls.toNat).inUse = 0 →
        exec i s =
          .next
            (((s.granted .host i).setCls cls.toNat { s.cls cls.toNat with values := some (classValuesOf f) }).ends .host
              0x31 tag [0x00])) ∧
      (0 < (s.cls cls.toNat).inUse → 8 ≤ s.batches.length →
        exec i s = .next ((s.granted .host i).ends .host 0x31 tag [0x15])) ∧
      (0 < (s.cls cls.toNat).inUse → s.batches.length < 8 →
        exec i s =
          .next
            ((((s.granted .host i).acceptBatch (.revision cls.toNat) .host [] []).setCls cls.toNat
              { s.cls cls.toNat with
                values := some (classValuesOf f)
                revisions := (s.cls cls.toNat).revisions + 1 }).ends .host 0x31 tag (0x01 :: u8 s.nextBatch)))) ∧
  ∀ (s : State) (tag cls : Byte) (i : Instr), i = .setClassUndefine .host tag cls → s.grants .host i = true →
    s.quiesce = .active →
    ((s.cls cls.toNat).values = none → exec i s = .next ((s.granted .host i).ends .host 0x31 tag [0x16])) ∧
    ((s.cls cls.toNat).values ≠ none → 0 < (s.cls cls.toNat).inUse →
      exec i s = .next ((s.granted .host i).ends .host 0x31 tag [0x1B])) ∧
    ((s.cls cls.toNat).values ≠ none → (s.cls cls.toNat).inUse = 0 → 0 < (s.cls cls.toNat).revisions →
      exec i s = .next ((s.granted .host i).ends .host 0x31 tag (0x24 :: u8 (s.cls cls.toNat).revisions))) ∧
    ((s.cls cls.toNat).values ≠ none → (s.cls cls.toNat).inUse = 0 → (s.cls cls.toNat).revisions = 0 →
      exec i s =
        .next
          (((s.granted .host i).setCls cls.toNat { s.cls cls.toNat with values := none }).ends .host 0x31 tag [0x00]))

/-! Claims (chapter 8) -/

/-- CLAIM and RELEASE (R147 to R152): the refusals in order; a granted claim stands at its link's limit, a CLAIM of a
claim already held reloads it, a RELEASE frees it; the item is settled either way. The life-status byte of a container's
replies is the model's choice (log entry 34). -/
def Obligations.ClaimAndRelease : Prop :=
  (∀ (s : State) (l : Link) (tag : Byte) (label : Label) (i : Instr) (limit : Nat), i = .claim l tag label →
    s.grants l i = true → limit = (match l with
      | .host => s.settings.hostLimit
      | .floor => s.settings.floorLimit) →
    (s.find label = none → exec i s = .next ((s.granted l i).ends l 0x40 tag [0x13])) ∧
    ∀ it, s.find label = some it →
      (s.inTransit it = true → exec i s = .next ((s.granted l i).ends l 0x40 tag [0x20])) ∧
      (∀ k, s.inTransit it = false → s.claimOf it = some k → k.link ≠ l →
        exec i s = .next ((s.granted l i).ends l 0x40 tag [0x21, linkCode k.link])) ∧
      (s.inTransit it = false → s.otherClaim l it = none → l = .host → s.quiesce ≠ .active →
        exec i s = .next ((s.granted l i).ends l 0x40 tag [0x23])) ∧
      ∀ u : State, s.inTransit it = false → s.otherClaim l it = none → l = .floor ∨ s.quiesce = .active →
        u = (match it with
          | .carrier n => (s.granted l i).settleStamped n
          | .container _ => s.granted l i) →
        (s.claimOf it = none → s.claims.length < 32 →
          exec i s =
            .next
              (({ u with claims := s.claims ++ [{ item := it, link := l, seconds := limit }] } : State).ends l 0x40 tag
                (u.pastStep8 0x00 it ++ u8 limit))) ∧
        (s.claimOf it = none → 32 ≤ s.claims.length → exec i s = .next (u.ends l 0x40 tag (u.pastStep8 0x15 it))) ∧
        (s.claimOf it ≠ none →
          exec i s =
            .next
              (({ u with
                  claims :=
                    s.claims.map fun k =>
                      if k.item = it ∧ k.link = l then { k with seconds := limit } else k } : State).ends l 0x40 tag
                (u.pastStep8 0x00 it ++ u8 limit)))) ∧
  ∀ (s : State) (l : Link) (tag : Byte) (label : Label) (i : Instr), i = .release l tag label → s.grants l i = true →
    (s.find label = none → exec i s = .next ((s.granted l i).ends l 0x41 tag [0x13])) ∧
    ∀ it, s.find label = some it →
      (∀ k, s.claimOf it = some k → k.link ≠ l →
        exec i s = .next ((s.granted l i).ends l 0x41 tag [0x21, linkCode k.link])) ∧
      (s.otherClaim l it = none → l = .host → s.quiesce ≠ .active →
        exec i s = .next ((s.granted l i).ends l 0x41 tag [0x23])) ∧
      ∀ u : State, s.otherClaim l it = none → l = .floor ∨ s.quiesce = .active →
        u = (match it with
          | .carrier n => (s.granted l i).settleStamped n
          | .container _ => s.granted l i) →
        (s.claimOf it ≠ none →
          exec i s =
            .next
              (({ u with claims := s.claims.filter fun k => k.item ≠ it } : State).ends l 0x41 tag (u.pastStep8 0x00 it))) ∧
        (s.claimOf it = none → exec i s = .next (u.ends l 0x41 tag (u.pastStep8 0x18 it)))

/-! Capture and watch (chapter 9) -/

/-- WATCH, CAPREAD and CAPCLEAR (R161 to R163), what a fault does to the record (R158, R159), and what a match does to
the record and the watch (R165). That WATCH SET stores the three lowest bits of its mask (log entry 15), that the outcome
in a CAPREAD reply takes no presence byte (log entry 16) and that the CAPCLEAR reply carries the watch's settings with its
state (log entry 35) are the model's choice. -/
def Obligations.CaptureAndWatch : Prop :=
  (∀ (s : State) (tag k mask : Byte) (base : Half) (block : Option Byte) (t : State) (i : Instr),
    i = .watchSet .host tag base k mask block → s.takes .host i = true →
    t =
      { s with
        watch :=
          { base := base.toNat
            k := k.toNat
            mask := mask.truncate 3
            block := (match block with
              | none => s.settings.watchBlock
              | some b => decide (b ≠ 0))
            armed := s.watch.armed } } →
    exec i s = .next (t.replies .host 0x48 tag (0x00 :: t.encWatch))) ∧
  (∀ (s t : State) (tag : Byte), s.takes .host (.watchArm .host tag) = true →
    t = { s with watch := { s.watch with armed := true } } →
    (s.heldMatch = false → s.watch.mask ≠ 0 →
      exec (.watchArm .host tag) s = .next (t.replies .host 0x48 tag (0x00 :: t.encWatch))) ∧
    (s.heldMatch = true ∨ s.watch.mask = 0 →
      exec (.watchArm .host tag) s = .next (s.replies .host 0x48 tag [0x18]))) ∧
  (∀ (s t : State) (tag : Byte), s.takes .host (.watchDisarm .host tag) = true →
    t = { s with watch := { s.watch with armed := false } } →
    exec (.watchDisarm .host tag) s = .next (t.replies .host 0x48 tag (0x00 :: t.encWatch))) ∧
  (∀ (s : State) (tag : Byte), s.takes .host (.capRead .host tag) = true →
    exec (.capRead .host tag) s =
      .next
        (s.replies .host 0x49 tag
          ((match s.capture with
            | none => [0x00, 0x00]
            | some r => [0x00, if r.kind = .watchMatch then 2 else 1] ++ encCapture r) ++
            yes s.moreFaults ++ s.encWatch))) ∧
  (∀ (s t : State) (tag : Byte), s.takes .host (.capClear .host tag) = true →
    t = { s with capture := none, moreFaults := false } →
    exec (.capClear .host tag) s = .next (t.replies .host 0x4A tag (0x00 :: t.encWatch))) ∧
  (∀ (s : State) (kind : CaptureKind) (src : CaptureSource) (label : Option Label) (loc zone : Option Nat)
    (r : CaptureRec),
    r = { kind := kind, source := src, label := label, loc := loc, zone := zone, stamp := s.clock, blocked := none } →
    (s.capture = none →
      s.raiseFault kind src label loc zone =
        { s with capture := some r }.raise .capture .captureUnit (some (.captured kind))) ∧
    (s.capture ≠ none → s.raiseFault kind src label loc zone = { s with moreFaults := true })) ∧
  ∀ (s : State) (src : CaptureSource) (label : Label) (loc zone : Nat) (blocked : Bool),
    s.takeMatch src label loc zone blocked =
      { s with
        watch := { s.watch with armed := false }
        capture :=
          some
            { kind := .watchMatch, source := src, label := some label, loc := some loc, zone := some zone,
              stamp := s.clock, blocked := some blocked } }.raise .capture .captureUnit (some (.captured .watchMatch))

/-! Alerts (chapter 10) -/

/-- A raising (R169 to R172): coalesced into the entry of its kind and subject, which keeps its place; a new entry at the
end while there is room; in a full queue the oldest entry of the lowest rank goes if that rank is lower, and else the
raising is dropped, the overflow flag set either way; EXPIRED removes the carrier's WARNED, SPENT its WARNED and
EXPIRED. -/
def Obligations.AlertIsRaised : Prop :=
  (∀ (s : State) (it : Item) (la : Label) (a : Alert),
    (a ∈ (s.raise .expired (.item it la) none).alerts → a.isFor .warned (.item it la) = false) ∧
    (a ∈ (s.raise .spent (.item it la) none).alerts →
      a.isFor .warned (.item it la) = false ∧ a.isFor .expired (.item it la) = false)) ∧
  ∀ (s : State) (k : AlertKind) (subj : Subject) (v : Option AlertValue) (new : Alert),
    (∀ a ∈ s.alerts, a.supersededBy k subj = false) →
    new = { kind := k, subject := subj, retired := false, stamp := s.clock, count := 1, value := v } →
    (∀ (before after : List Alert) (a : Alert), s.alerts = before ++ a :: after → a.isFor k subj = true →
      (∀ b ∈ before ++ after, b.isFor k subj = false) →
      ∃ a', s.raise k subj v = { s with alerts := before ++ a' :: after } ∧ a'.kind = k ∧ a'.retired = false ∧
        a'.stamp = s.clock ∧ a'.count = min (a.count + 1) 255 ∧ a'.subject.same subj = true ∧
        (k = .zoneDegraded ∨ k = .capture ∨ k = .claimLapsed ∨ k = .batchDone → a'.value = v) ∧
        ∀ m n, k = .outage → a.value = some (.minutes m) → v = some (.minutes n) →
          a'.value = some (.minutes (min (m + n) 4294967295))) ∧
    ((∀ a ∈ s.alerts, a.isFor k subj = false) → s.alerts.length < 128 →
      s.raise k subj v = { s with alerts := s.alerts ++ [new] }) ∧
    (∀ (before after : List Alert) (a : Alert), (∀ b ∈ s.alerts, b.isFor k subj = false) → 128 ≤ s.alerts.length →
      s.alerts = before ++ a :: after → a.kind.rank < k.rank → (∀ b ∈ before, a.kind.rank < b.kind.rank) →
      (∀ b ∈ after, a.kind.rank ≤ b.kind.rank) →
      s.raise k subj v = { s with alerts := before ++ after ++ [new], overflow := true }) ∧
    ((∀ a ∈ s.alerts, a.isFor k subj = false) → 128 ≤ s.alerts.length → (∀ a ∈ s.alerts, k.rank ≤ a.kind.rank) →
      s.raise k subj v = { s with overflow := true })

/-- ALERTS (R175 to R177): the reply carries the overflow flag, the number returned, the number left and the entries, by
age or by rank; the returned entries leave the queue, the others keep their age order, and the flag is cleared. The
second count byte before the entries (log entry 17) and the number of entries that fit (log entry 28) are the model's
choice. -/
def Obligations.AlertsAreReturned : Prop :=
  (∀ (s : State) (tag : Byte) (maximum : Option Byte) (n : Nat) (sel left : List Alert) (i : Instr)
    (body : Nat → List Byte),
    i = .alerts .host tag maximum → s.takes .host i = true → n = s.alertsCount (maximum.getD 8).toNat →
    (∀ m (as : List Alert), as = (alertSelection s.settings.alertOrder s.alerts).take m →
      body m =
        [0x00] ++ yes s.overflow ++ u8 as.length ++ u8 (s.alerts.length - as.length) ++ encList (as.map encAlert)) →
    sel = (alertSelection s.settings.alertOrder s.alerts).take n → left = alertsLeft s.settings.alertOrder n s.alerts →
    n ≤ (maximum.getD 8).toNat ∧ n ≤ s.alerts.length ∧
      n = fitCount (fun m => 2 + (body m).length) (min (maximum.getD 8).toNat s.alerts.length) ∧ sel.length = n ∧ (sel ++ left).Perm s.alerts ∧
      left.Sublist s.alerts ∧
      exec i s =
        .next
          ({ s with alerts := left, overflow := false }.replies .host 0x50 tag
            ([0x00] ++ yes s.overflow ++ u8 n ++ u8 (s.alerts.length - n) ++ encList (sel.map encAlert)))) ∧
  (∀ (as : List Alert) (n : Nat), alertSelection .age as = as ∧ alertsLeft .age n as = as.drop n) ∧
  ∀ as : List Alert,
    alertSelection .rank as =
      as.filter (fun a => a.kind.rank = 3) ++ as.filter (fun a => a.kind.rank = 2) ++
        as.filter fun a => a.kind.rank = 1

/-! Batch steps and the Store Arbiter (chapter 7) -/

/-- The carrier steps of the seven batch-step rows (R128 to R134): a MOVE or EVACUATE brings its carrier or leaves it
behind; a PACK, UNPACK or REPARENT gives it the mode of its new chain; a CLASS_REVISION settles it when it is of the
class; the cursor moves on by one. The record, zones and alerts of a carrier that moves are those of its residence change
(R4), with BAKE_REFUSED when it becomes BAKE with no bake left (R76, R169), also when it is left behind (the model's
choice, log entry 14); LEFT_BEHIND is raised after them. -/
def Obligations.BatchCarrierSteps : Prop :=
  (∀ (s g : State) (b : Batch) (n t loc : Nat) (rest : List Nat) (c k : Carrier), s.stepsNow .moveCarrier b →
    b.walk = n :: rest → s.carrier n = some c → k = (s.settled c).1 → b.job.target = (t, loc) →
    g = ((s.grantStep.settle n).1.stepEntry (s.labelOf (.carrier n)) t loc k).1 →
    ∃ u d, exec .moveCarrierStep s = .next u ∧ u.carrier n = some d ∧ (∀ m, m ≠ n → u.carrier m = s.carrier m) ∧
      s.airKept u ∧ s.containsOnly u ∧ u.nextBatch = s.nextBatch ∧ u.capture = g.capture ∧
      u.moreFaults = g.moreFaults ∧ u.watch = g.watch ∧ u.claims = s.claims ∧
      (s.stepPasses t loc k →
        u.batches = { b with walk := rest, done := b.done + 1 } :: s.batches.tail ∧ u.containers = s.containers ∧
          d.inTransit = c.inTransit ∧
          (Parent.container? c.parent ≠ none → c.zone = some t →
            d = { k with stamp := stampAfterSettle c k } ∧ u.zones = g.zones ∧ u.alerts = g.alerts) ∧
          (∀ r : Residence, Parent.container? c.parent = none ∨ c.zone ≠ some t →
            r.parent = (if Parent.container? c.parent = none then some (.place t loc) else c.parent) →
            r.packed = c.packed → r.zone = some t → r.mode = s.modeUnder r.parent (some t) c.packed →
            d.parent = r.parent ∧ d.packed = r.packed ∧ d.zone = r.zone ∧ d.mode = r.mode ∧
              d.stamp = nextStamp c.stamp ∧ g.carrierMoved u n c r false d)) ∧
      (¬s.stepPasses t loc k →
        u.batches =
            { b with
              walk := rest
              done := b.done + 1
              leftBehind := b.leftBehind + 1
              carriers := b.carriers.filter fun m => m ≠ n } :: s.batches.tail ∧
          d.inTransit = false ∧ d.packed = c.packed ∧ d.zone = c.zone ∧
          (Parent.container? c.parent = none →
            d = { k with stamp := stampAfterSettle c k, inTransit := false } ∧ u.containers = s.containers ∧
              u.zones = g.zones ∧
              u.alerts = (g.raise .leftBehind (.item (.carrier n) (s.labelOf (.carrier n))) none).alerts) ∧
          (∀ (p : Nat) (r : Residence) (h w : State), c.parent = some (.container p) →
            r = { parent := s.placeParent p, packed := c.packed, zone := c.zone, mode := s.modeIn c.zone c.packed } →
            h = (g.dropMember p (.carrier n)).subSubtree (g.chain p) 1 → w = h.moveCarrier n k r →
            d.parent = r.parent ∧ d.mode = r.mode ∧ d.stamp = nextStamp c.stamp ∧
              u.members p = ((s.members p).filter fun m => m ≠ .carrier n) ∧
              h.carrierMoved w n c r false { d with inTransit := c.inTransit } ∧ u.zones = w.zones ∧
              u.alerts = (w.raise .leftBehind (.item (.carrier n) (s.labelOf (.carrier n))) none).alerts))) ∧
  (∀ (s g : State) (b : Batch) (n : Nat) (rest : List Nat) (c k : Carrier) (m : ResMode) (i : Instr),
    b.walk = n :: rest → s.carrier n = some c → k = (s.settled c).1 → g = (s.grantStep.settle n).1 →
    (i = .packUnpackCarrierStep ∧ s.stepsNow .packCarrier b ∧
        m = s.modeIn c.zone (c.packed || (s.chainOfParent c.parent).any fun x =>
          if x = b.job.packing.1 then b.job.packing.2 else s.packedFlag x)) ∨
      (i = .reparentCarrierStep ∧ s.stepsNow .reparentCarrier b ∧
        m = s.modeIn c.zone (c.packed ||
          (chainUpTo b.job.reparent.1 (s.chainOfParent c.parent) ++
            (match b.job.reparent.2 with
              | none => []
              | some t => s.chain t)).any s.packedFlag)) →
    ∃ u d, exec i s = .next u ∧ u.carrier n = some d ∧ (∀ x, x ≠ n → u.carrier x = s.carrier x) ∧ s.airKept u ∧
      s.containsOnly u ∧ u.containers = s.containers ∧ u.nextBatch = s.nextBatch ∧
      u.batches = { b with walk := rest, done := b.done + 1 } :: s.batches.tail ∧
      (m = c.mode → d = { k with stamp := stampAfterSettle c k } ∧ u.zones = g.zones ∧ u.alerts = g.alerts) ∧
      (m ≠ c.mode → d.mode = m ∧ d.parent = c.parent ∧ d.packed = c.packed ∧ d.zone = c.zone ∧
        d.stamp = nextStamp c.stamp ∧
        g.carrierMoved u n c { parent := c.parent, packed := c.packed, zone := c.zone, mode := m } true d)) ∧
  ∀ (s w : State) (b : Batch) (cls : Nat), s.stepsNow .revision b → b.job = .revision cls →
    w = (match s.carrier b.done with
      | none => s.grantStep
      | some c => if c.cls = cls then s.grantStep.settleStamped b.done else s.grantStep) →
    (b.done < 4095 →
      exec .classRevisionStep s =
        .next ({ w with batches := { b with walk := b.walk.tail, done := b.done + 1 } :: s.batches.tail }.freeStore)) ∧
    (4095 ≤ b.done → exec .classRevisionStep s = .next ((w.completeBatch b).freeStore))

/-- The final steps (R131 to R133) and completion (R47, R135): the containers arrive, each top-level one as an arrival for
the watch that the block option does not refuse, the packed flag or the parent changes, the marks go, the record leaves
the queue, BATCH_DONE is raised with its value, QUIESCING becomes QUIESCED. -/
def Obligations.BatchFinalSteps : Prop :=
  (∀ (s w : State) (b : Batch) (t loc : Nat), s.stepsNow .moveFinal b → b.job.target = (t, loc) →
    w = (b.containers.filter s.isTop).foldl
        (fun v m =>
          if v.watchMatches .batch loc then v.takeMatch .batch (v.labelOf (.container m)) loc t false else v)
        (s.grantStep.bringContainers b.job.source t loc b.containers) →
    exec .moveFinalStep s = .next (((w.markAll false b.carriers b.containers).completeBatch b).freeStore)) ∧
  (∀ (s : State) (b : Batch) (t loc : Nat), s.stepsNow .moveFinal b → b.job.target = (t, loc) →
    ∃ u, exec .moveFinalStep s = .next u ∧ u.batches = s.batches.tail ∧
      (∀ m ∈ b.containers, ∀ c, s.container m = some c →
        u.container m =
          some
            { c with
              parent := (if s.parentOf m = none then some (.place t loc) else c.parent)
              zone := some t
              inTransit := false
              stamp :=
                if (s.parentOf m = none ∧ c.parent ≠ some (.place t loc)) ∨ c.zone ≠ some t then nextStamp c.stamp
                else c.stamp }) ∧
      (∀ m, m ∉ b.containers → u.container m = s.container m) ∧
      (∀ n ∈ b.carriers, u.carrier n = (s.carrier n).map fun c => { c with inTransit := false }) ∧
      (∀ n, n ∉ b.carriers → u.carrier n = s.carrier n) ∧
      (b.job.source ≠ some t → t < s.zones.length →
        (u.zone t).containers = (s.zone t).containers + b.containers.length) ∧
      (∀ z, b.job.source = some z → z ≠ t →
        (u.zone z).containers = (s.zone z).containers - b.containers.length)) ∧
  (∀ (s : State) (b : Batch) (c : Container), s.stepsNow .packFinal b → s.container b.job.packing.1 = some c →
    exec .packUnpackFinalStep s =
      .next
        ((((s.grantStep.setContainer b.job.packing.1
          { c with packed := b.job.packing.2, stamp := nextStamp c.stamp }).markAll false b.carriers
            b.containers).completeBatch b).freeStore)) ∧
  (∀ (s : State) (b : Batch) (x t : Nat), s.stepsNow .reparentFinal b →
    (b.job = .nesting x t →
      exec .reparentFinalStep s =
        .next ((((s.grantStep.joinContainer x t).markAll false b.carriers b.containers).completeBatch b).freeStore)) ∧
    (b.job = .unnesting x →
      exec .reparentFinalStep s =
        .next ((((s.grantStep.leaveContainer x).markAll false b.carriers b.containers).completeBatch b).freeStore))) ∧
  ∀ (s u : State) (b : Batch), u = s.completeBatch b →
    u.batches = s.batches.tail ∧ u.quiesce = (if s.quiesce = .quiescing then .quiesced else s.quiesce) ∧
      u.carriers = s.carriers ∧ u.containers = s.containers ∧
      u.alerts =
        (s.raise .batchDone (.batch b.number b.job.kind)
          (match b.job with
            | .move _ _ _ _ => some (.leftBehind b.leftBehind)
            | .evacuate _ _ _ => some (.leftBehind b.leftBehind)
            | _ => none)).alerts ∧
      (∀ cls, b.job = .revision cls → (u.cls cls).revisions = (s.cls cls).revisions - 1) ∧
      ∀ src t loc, b.job = .evacuate src t loc →
        (u.zone src).evacuating =
          ((s.zone src).evacuating && s.batches.tail.any fun x => match x.job with
            | .evacuate a _ _ => decide (a = src)
            | _ => false)

/-- Whom the Store Arbiter grants (R142 to R145), and how it counts port grants, from 0 again when the store frees with no
step waiting (R143). An operation that may have held the store over the last minute event may
also take it, ahead of the drains, until a grant is made (R36, R43; who held it is the model's choice, log entry 33). -/
def Obligations.ArbiterChooses : Prop :=
  (∀ s : State, s.receiving = false → s.arbitrate = .none) ∧
  (∀ s : State, s.receiving = true → s.dueZone ≠ none → s.arbitrate = .drain) ∧
  (∀ (s : State) (last : Link), s.receiving = true → s.dueZone = none → last = s.lastServed →
    (s.runningBatch = none →
      (s.portWaiting .host = false → s.portWaiting .floor = false → s.arbitrate = .none) ∧
      (s.portWaiting .host = true → s.portWaiting .floor = false → s.arbitrate = .port .host) ∧
      (s.portWaiting .host = false → s.portWaiting .floor = true → s.arbitrate = .port .floor) ∧
      (s.portWaiting .host = true → s.portWaiting .floor = true → s.arbitrate = .port (otherLink last))) ∧
    (s.runningBatch ≠ none → s.settings.arbiterMode = .batchFirst → s.arbitrate = .step) ∧
    (s.runningBatch ≠ none → s.settings.arbiterMode = .portsFirst → 8 ≤ s.portCount → s.arbitrate = .step) ∧
    (s.runningBatch ≠ none → s.settings.arbiterMode = .portsFirst → s.portCount < 8 →
      (s.portWaiting .host = false → s.portWaiting .floor = false → s.arbitrate = .step) ∧
      (s.portWaiting .host = true → s.portWaiting .floor = false → s.arbitrate = .port .host) ∧
      (s.portWaiting .host = false → s.portWaiting .floor = true → s.arbitrate = .port .floor) ∧
      (s.portWaiting .host = true → s.portWaiting .floor = true → s.arbitrate = .port (otherLink last))) ∧
    (s.runningBatch ≠ none → s.settings.arbiterMode = .batchExclusive →
      (∀ l, s.portWaiting l = true → l ∉ s.owed) → s.arbitrate = .step) ∧
    (∀ l, s.runningBatch ≠ none → s.settings.arbiterMode = .batchExclusive → s.portWaiting l = true → l ∈ s.owed →
      (otherLink l ∉ s.owed ∨ s.portWaiting (otherLink l) = false ∨ last = otherLink l) → s.arbitrate = .port l)) ∧
  (∀ (s : State) (l : Link), (s.grantPort l).lastServed = l ∧
    (s.grantPort l).portCount =
      if s.runningBatch ≠ none ∧ s.settings.arbiterMode = .portsFirst then s.portCount + 1 else s.portCount) ∧
  (∀ s : State, s.grantStep.portCount = 0 ∧ s.grantStep.lastServed = s.lastServed) ∧
  (∀ s : State,
    (s.runningBatch = none → s.freeStore = { s with portCount := 0 }) ∧ (s.runningBatch ≠ none → s.freeStore = s)) ∧
  (∀ (s : State) (l : Link) (kind tag : Byte) (result : List Byte), s.runningBatch = none →
    (s.ends l kind tag result).portCount = 0) ∧
  (∀ (s : State) (b : Batch), s.settings.arbiterMode = .batchExclusive → ∀ l,
    l ∈ (s.completeBatch b).owed ↔ s.portWaiting l = true) ∧
  (∀ (s : State) (g : Grant), s.awards g = true ↔ s.arbitrate = g ∨ (s.receiving = true ∧ s.heldOver = g)) ∧
  ∀ (s : State) (l : Link), (s.grantPort l).heldOver = .none ∧ s.grantStep.heldOver = .none ∧
    s.grantDrain.heldOver = .none

/-! Invariants of a run -/

/-- Every step keeps the tables and queues within their limits, each slot and number listed once in order, and the
deadline lists in key order (R1, R26, R37, R50, R88, R124, R147, R168, R182). -/
def Obligations.StoreKeepsItsForm : Prop :=
  ∀ s t : State, s.bounded ∧ s.tabled ∧ s.ordered → step s = .next t → t.bounded ∧ t.tabled ∧ t.ordered

/-- Every step keeps the conservation of every carrier's account (R22, R23). -/
def Obligations.ExposureIsConserved : Prop :=
  ∀ s t : State, s.conserved → step s = .next t → t.conserved

/-- No zone's integrals ever decrease, by a command or by any step, the idle step among them, but by a cold start and the
loss of power before it (R34). -/
def Obligations.IntegralsNeverDecrease : Prop :=
  (∀ (c : Instr) (s t : State), (∀ pins, c ≠ .coldStart pins) → c ≠ .retainEntry false → c ≠ .mainPowerLoss false →
    c ≠ .backupLoss → exec c s = .next t → s.integralsKept t) ∧
  ∀ s t : State,
    (∀ c, s.pending.head? = some c →
      (∀ pins, c ≠ .coldStart pins) ∧ c ≠ .retainEntry false ∧ c ≠ .mainPowerLoss false ∧ c ≠ .backupLoss) →
    step s = .next t → s.integralsKept t

/-- The invariants hold at State.reset. -/
def Obligations.InvariantsAtReset : Prop :=
  State.reset.bounded ∧ State.reset.tabled ∧ State.reset.ordered ∧ State.reset.conserved

/-- Every step takes a SPENT carrier whose slot stays live to a SPENT one (R5). -/
def Obligations.SpentStaysSpent : Prop :=
  ∀ (s t : State) (n : Nat) (c d : Carrier), s.tabled → step s = .next t → s.carrier n = some c → c.life = .spent →
    t.carrier n = some d → d.life = .spent
end

