-- ==== Sys2Proof/Laws/State.lean ====
section
/-! SUPPORT. One lemma per field per named update of State, for simp. -/

namespace Sys2Proof.Machine

/-! setLink and setHand -/

@[simp] theorem State.setLink_pending (s : State) (l : Link) (ls : LinkState) :
    (s.setLink l ls).pending = s.pending := by cases l <;> rfl
@[simp] theorem State.setLink_line (s : State) (l : Link) (ls : LinkState) :
    (s.setLink l ls).line = s.line := by cases l <;> rfl
@[simp] theorem State.setLink_heldOver (s : State) (l : Link) (ls : LinkState) :
    (s.setLink l ls).heldOver = s.heldOver := by cases l <;> rfl
@[simp] theorem State.setLink_power (s : State) (l : Link) (ls : LinkState) :
    (s.setLink l ls).power = s.power := by cases l <;> rfl
@[simp] theorem State.setLink_windDown (s : State) (l : Link) (ls : LinkState) :
    (s.setLink l ls).windDown = s.windDown := by cases l <;> rfl
@[simp] theorem State.setLink_resetAsserted (s : State) (l : Link) (ls : LinkState) :
    (s.setLink l ls).resetAsserted = s.resetAsserted := by cases l <;> rfl
@[simp] theorem State.setLink_checkWord (s : State) (l : Link) (ls : LinkState) :
    (s.setLink l ls).checkWord = s.checkWord := by cases l <;> rfl
@[simp] theorem State.setLink_lastStart (s : State) (l : Link) (ls : LinkState) :
    (s.setLink l ls).lastStart = s.lastStart := by cases l <;> rfl
@[simp] theorem State.setLink_missed (s : State) (l : Link) (ls : LinkState) :
    (s.setLink l ls).missed = s.missed := by cases l <;> rfl
@[simp] theorem State.setLink_minuteCount (s : State) (l : Link) (ls : LinkState) :
    (s.setLink l ls).minuteCount = s.minuteCount := by cases l <;> rfl
@[simp] theorem State.setLink_clock (s : State) (l : Link) (ls : LinkState) :
    (s.setLink l ls).clock = s.clock := by cases l <;> rfl
@[simp] theorem State.setLink_patternPhase (s : State) (l : Link) (ls : LinkState) :
    (s.setLink l ls).patternPhase = s.patternPhase := by cases l <;> rfl
@[simp] theorem State.setLink_settings (s : State) (l : Link) (ls : LinkState) :
    (s.setLink l ls).settings = s.settings := by cases l <;> rfl
@[simp] theorem State.setLink_grid (s : State) (l : Link) (ls : LinkState) :
    (s.setLink l ls).grid = s.grid := by cases l <;> rfl
@[simp] theorem State.setLink_zones (s : State) (l : Link) (ls : LinkState) :
    (s.setLink l ls).zones = s.zones := by cases l <;> rfl
@[simp] theorem State.setLink_classes (s : State) (l : Link) (ls : LinkState) :
    (s.setLink l ls).classes = s.classes := by cases l <;> rfl
@[simp] theorem State.setLink_carriers (s : State) (l : Link) (ls : LinkState) :
    (s.setLink l ls).carriers = s.carriers := by cases l <;> rfl
@[simp] theorem State.setLink_containers (s : State) (l : Link) (ls : LinkState) :
    (s.setLink l ls).containers = s.containers := by cases l <;> rfl
@[simp] theorem State.setLink_directory (s : State) (l : Link) (ls : LinkState) :
    (s.setLink l ls).directory = s.directory := by cases l <;> rfl
@[simp] theorem State.setLink_batches (s : State) (l : Link) (ls : LinkState) :
    (s.setLink l ls).batches = s.batches := by cases l <;> rfl
@[simp] theorem State.setLink_quiesce (s : State) (l : Link) (ls : LinkState) :
    (s.setLink l ls).quiesce = s.quiesce := by cases l <;> rfl
@[simp] theorem State.setLink_nextBatch (s : State) (l : Link) (ls : LinkState) :
    (s.setLink l ls).nextBatch = s.nextBatch := by cases l <;> rfl
@[simp] theorem State.setLink_lastServed (s : State) (l : Link) (ls : LinkState) :
    (s.setLink l ls).lastServed = s.lastServed := by cases l <;> rfl
@[simp] theorem State.setLink_portCount (s : State) (l : Link) (ls : LinkState) :
    (s.setLink l ls).portCount = s.portCount := by cases l <;> rfl
@[simp] theorem State.setLink_owed (s : State) (l : Link) (ls : LinkState) :
    (s.setLink l ls).owed = s.owed := by cases l <;> rfl
@[simp] theorem State.setLink_claims (s : State) (l : Link) (ls : LinkState) :
    (s.setLink l ls).claims = s.claims := by cases l <;> rfl
@[simp] theorem State.setLink_capture (s : State) (l : Link) (ls : LinkState) :
    (s.setLink l ls).capture = s.capture := by cases l <;> rfl
@[simp] theorem State.setLink_moreFaults (s : State) (l : Link) (ls : LinkState) :
    (s.setLink l ls).moreFaults = s.moreFaults := by cases l <;> rfl
@[simp] theorem State.setLink_watch (s : State) (l : Link) (ls : LinkState) :
    (s.setLink l ls).watch = s.watch := by cases l <;> rfl
@[simp] theorem State.setLink_alerts (s : State) (l : Link) (ls : LinkState) :
    (s.setLink l ls).alerts = s.alerts := by cases l <;> rfl
@[simp] theorem State.setLink_overflow (s : State) (l : Link) (ls : LinkState) :
    (s.setLink l ls).overflow = s.overflow := by cases l <;> rfl
@[simp] theorem State.setLink_doorLevel (s : State) (l : Link) (ls : LinkState) :
    (s.setLink l ls).doorLevel = s.doorLevel := by cases l <;> rfl
@[simp] theorem State.setHand_pending (s : State) (l : Link) (h : Option Hand) :
    (s.setHand l h).pending = s.pending := by cases l <;> rfl
@[simp] theorem State.setHand_line (s : State) (l : Link) (h : Option Hand) :
    (s.setHand l h).line = s.line := by cases l <;> rfl
@[simp] theorem State.setHand_heldOver (s : State) (l : Link) (h : Option Hand) :
    (s.setHand l h).heldOver = s.heldOver := by cases l <;> rfl
@[simp] theorem State.setHand_power (s : State) (l : Link) (h : Option Hand) :
    (s.setHand l h).power = s.power := by cases l <;> rfl
@[simp] theorem State.setHand_windDown (s : State) (l : Link) (h : Option Hand) :
    (s.setHand l h).windDown = s.windDown := by cases l <;> rfl
@[simp] theorem State.setHand_resetAsserted (s : State) (l : Link) (h : Option Hand) :
    (s.setHand l h).resetAsserted = s.resetAsserted := by cases l <;> rfl
@[simp] theorem State.setHand_checkWord (s : State) (l : Link) (h : Option Hand) :
    (s.setHand l h).checkWord = s.checkWord := by cases l <;> rfl
@[simp] theorem State.setHand_lastStart (s : State) (l : Link) (h : Option Hand) :
    (s.setHand l h).lastStart = s.lastStart := by cases l <;> rfl
@[simp] theorem State.setHand_missed (s : State) (l : Link) (h : Option Hand) :
    (s.setHand l h).missed = s.missed := by cases l <;> rfl
@[simp] theorem State.setHand_minuteCount (s : State) (l : Link) (h : Option Hand) :
    (s.setHand l h).minuteCount = s.minuteCount := by cases l <;> rfl
@[simp] theorem State.setHand_clock (s : State) (l : Link) (h : Option Hand) :
    (s.setHand l h).clock = s.clock := by cases l <;> rfl
@[simp] theorem State.setHand_patternPhase (s : State) (l : Link) (h : Option Hand) :
    (s.setHand l h).patternPhase = s.patternPhase := by cases l <;> rfl
@[simp] theorem State.setHand_settings (s : State) (l : Link) (h : Option Hand) :
    (s.setHand l h).settings = s.settings := by cases l <;> rfl
@[simp] theorem State.setHand_grid (s : State) (l : Link) (h : Option Hand) :
    (s.setHand l h).grid = s.grid := by cases l <;> rfl
@[simp] theorem State.setHand_zones (s : State) (l : Link) (h : Option Hand) :
    (s.setHand l h).zones = s.zones := by cases l <;> rfl
@[simp] theorem State.setHand_classes (s : State) (l : Link) (h : Option Hand) :
    (s.setHand l h).classes = s.classes := by cases l <;> rfl
@[simp] theorem State.setHand_carriers (s : State) (l : Link) (h : Option Hand) :
    (s.setHand l h).carriers = s.carriers := by cases l <;> rfl
@[simp] theorem State.setHand_containers (s : State) (l : Link) (h : Option Hand) :
    (s.setHand l h).containers = s.containers := by cases l <;> rfl
@[simp] theorem State.setHand_directory (s : State) (l : Link) (h : Option Hand) :
    (s.setHand l h).directory = s.directory := by cases l <;> rfl
@[simp] theorem State.setHand_batches (s : State) (l : Link) (h : Option Hand) :
    (s.setHand l h).batches = s.batches := by cases l <;> rfl
@[simp] theorem State.setHand_quiesce (s : State) (l : Link) (h : Option Hand) :
    (s.setHand l h).quiesce = s.quiesce := by cases l <;> rfl
@[simp] theorem State.setHand_nextBatch (s : State) (l : Link) (h : Option Hand) :
    (s.setHand l h).nextBatch = s.nextBatch := by cases l <;> rfl
@[simp] theorem State.setHand_lastServed (s : State) (l : Link) (h : Option Hand) :
    (s.setHand l h).lastServed = s.lastServed := by cases l <;> rfl
@[simp] theorem State.setHand_portCount (s : State) (l : Link) (h : Option Hand) :
    (s.setHand l h).portCount = s.portCount := by cases l <;> rfl
@[simp] theorem State.setHand_owed (s : State) (l : Link) (h : Option Hand) :
    (s.setHand l h).owed = s.owed := by cases l <;> rfl
@[simp] theorem State.setHand_claims (s : State) (l : Link) (h : Option Hand) :
    (s.setHand l h).claims = s.claims := by cases l <;> rfl
@[simp] theorem State.setHand_capture (s : State) (l : Link) (h : Option Hand) :
    (s.setHand l h).capture = s.capture := by cases l <;> rfl
@[simp] theorem State.setHand_moreFaults (s : State) (l : Link) (h : Option Hand) :
    (s.setHand l h).moreFaults = s.moreFaults := by cases l <;> rfl
@[simp] theorem State.setHand_watch (s : State) (l : Link) (h : Option Hand) :
    (s.setHand l h).watch = s.watch := by cases l <;> rfl
@[simp] theorem State.setHand_alerts (s : State) (l : Link) (h : Option Hand) :
    (s.setHand l h).alerts = s.alerts := by cases l <;> rfl
@[simp] theorem State.setHand_overflow (s : State) (l : Link) (h : Option Hand) :
    (s.setHand l h).overflow = s.overflow := by cases l <;> rfl
@[simp] theorem State.setHand_doorLevel (s : State) (l : Link) (h : Option Hand) :
    (s.setHand l h).doorLevel = s.doorLevel := by cases l <;> rfl
@[simp] theorem State.link_setLink (s : State) (l : Link) (ls : LinkState) : (s.setLink l ls).link l = ls := by
  cases l <;> rfl
@[simp] theorem State.link_setLink_other (s : State) (l : Link) (ls : LinkState) :
    (s.setLink l ls).link (otherLink l) = s.link (otherLink l) := by cases l <;> rfl
@[simp] theorem State.link_setHand (s : State) (l : Link) (h : Option Hand) :
    (s.setHand l h).link l = { s.link l with hand := h } := by cases l <;> rfl
@[simp] theorem State.link_setHand_other (s : State) (l : Link) (h : Option Hand) :
    (s.setHand l h).link (otherLink l) = s.link (otherLink l) := by cases l <;> rfl
@[simp] theorem State.setHand_setHand (s : State) (l : Link) (a b : Option Hand) :
    (s.setHand l a).setHand l b = s.setHand l b := by cases l <;> rfl

/-! setZone -/

@[simp] theorem State.setZone_pending (s : State) (n : Nat) (z : Zone) :
    (s.setZone n z).pending = s.pending := rfl
@[simp] theorem State.setZone_line (s : State) (n : Nat) (z : Zone) :
    (s.setZone n z).line = s.line := rfl
@[simp] theorem State.setZone_heldOver (s : State) (n : Nat) (z : Zone) :
    (s.setZone n z).heldOver = s.heldOver := rfl
@[simp] theorem State.setZone_power (s : State) (n : Nat) (z : Zone) :
    (s.setZone n z).power = s.power := rfl
@[simp] theorem State.setZone_windDown (s : State) (n : Nat) (z : Zone) :
    (s.setZone n z).windDown = s.windDown := rfl
@[simp] theorem State.setZone_resetAsserted (s : State) (n : Nat) (z : Zone) :
    (s.setZone n z).resetAsserted = s.resetAsserted := rfl
@[simp] theorem State.setZone_checkWord (s : State) (n : Nat) (z : Zone) :
    (s.setZone n z).checkWord = s.checkWord := rfl
@[simp] theorem State.setZone_lastStart (s : State) (n : Nat) (z : Zone) :
    (s.setZone n z).lastStart = s.lastStart := rfl
@[simp] theorem State.setZone_missed (s : State) (n : Nat) (z : Zone) :
    (s.setZone n z).missed = s.missed := rfl
@[simp] theorem State.setZone_minuteCount (s : State) (n : Nat) (z : Zone) :
    (s.setZone n z).minuteCount = s.minuteCount := rfl
@[simp] theorem State.setZone_clock (s : State) (n : Nat) (z : Zone) :
    (s.setZone n z).clock = s.clock := rfl
@[simp] theorem State.setZone_patternPhase (s : State) (n : Nat) (z : Zone) :
    (s.setZone n z).patternPhase = s.patternPhase := rfl
@[simp] theorem State.setZone_hostLink (s : State) (n : Nat) (z : Zone) :
    (s.setZone n z).hostLink = s.hostLink := rfl
@[simp] theorem State.setZone_floorLink (s : State) (n : Nat) (z : Zone) :
    (s.setZone n z).floorLink = s.floorLink := rfl
@[simp] theorem State.setZone_settings (s : State) (n : Nat) (z : Zone) :
    (s.setZone n z).settings = s.settings := rfl
@[simp] theorem State.setZone_grid (s : State) (n : Nat) (z : Zone) :
    (s.setZone n z).grid = s.grid := rfl
@[simp] theorem State.setZone_classes (s : State) (n : Nat) (z : Zone) :
    (s.setZone n z).classes = s.classes := rfl
@[simp] theorem State.setZone_carriers (s : State) (n : Nat) (z : Zone) :
    (s.setZone n z).carriers = s.carriers := rfl
@[simp] theorem State.setZone_containers (s : State) (n : Nat) (z : Zone) :
    (s.setZone n z).containers = s.containers := rfl
@[simp] theorem State.setZone_directory (s : State) (n : Nat) (z : Zone) :
    (s.setZone n z).directory = s.directory := rfl
@[simp] theorem State.setZone_batches (s : State) (n : Nat) (z : Zone) :
    (s.setZone n z).batches = s.batches := rfl
@[simp] theorem State.setZone_quiesce (s : State) (n : Nat) (z : Zone) :
    (s.setZone n z).quiesce = s.quiesce := rfl
@[simp] theorem State.setZone_nextBatch (s : State) (n : Nat) (z : Zone) :
    (s.setZone n z).nextBatch = s.nextBatch := rfl
@[simp] theorem State.setZone_lastServed (s : State) (n : Nat) (z : Zone) :
    (s.setZone n z).lastServed = s.lastServed := rfl
@[simp] theorem State.setZone_portCount (s : State) (n : Nat) (z : Zone) :
    (s.setZone n z).portCount = s.portCount := rfl
@[simp] theorem State.setZone_owed (s : State) (n : Nat) (z : Zone) :
    (s.setZone n z).owed = s.owed := rfl
@[simp] theorem State.setZone_claims (s : State) (n : Nat) (z : Zone) :
    (s.setZone n z).claims = s.claims := rfl
@[simp] theorem State.setZone_capture (s : State) (n : Nat) (z : Zone) :
    (s.setZone n z).capture = s.capture := rfl
@[simp] theorem State.setZone_moreFaults (s : State) (n : Nat) (z : Zone) :
    (s.setZone n z).moreFaults = s.moreFaults := rfl
@[simp] theorem State.setZone_watch (s : State) (n : Nat) (z : Zone) :
    (s.setZone n z).watch = s.watch := rfl
@[simp] theorem State.setZone_alerts (s : State) (n : Nat) (z : Zone) :
    (s.setZone n z).alerts = s.alerts := rfl
@[simp] theorem State.setZone_overflow (s : State) (n : Nat) (z : Zone) :
    (s.setZone n z).overflow = s.overflow := rfl
@[simp] theorem State.setZone_doorLevel (s : State) (n : Nat) (z : Zone) :
    (s.setZone n z).doorLevel = s.doorLevel := rfl

/-! setCls -/

@[simp] theorem State.setCls_pending (s : State) (n : Nat) (c : ClassRec) :
    (s.setCls n c).pending = s.pending := rfl
@[simp] theorem State.setCls_line (s : State) (n : Nat) (c : ClassRec) :
    (s.setCls n c).line = s.line := rfl
@[simp] theorem State.setCls_heldOver (s : State) (n : Nat) (c : ClassRec) :
    (s.setCls n c).heldOver = s.heldOver := rfl
@[simp] theorem State.setCls_power (s : State) (n : Nat) (c : ClassRec) :
    (s.setCls n c).power = s.power := rfl
@[simp] theorem State.setCls_windDown (s : State) (n : Nat) (c : ClassRec) :
    (s.setCls n c).windDown = s.windDown := rfl
@[simp] theorem State.setCls_resetAsserted (s : State) (n : Nat) (c : ClassRec) :
    (s.setCls n c).resetAsserted = s.resetAsserted := rfl
@[simp] theorem State.setCls_checkWord (s : State) (n : Nat) (c : ClassRec) :
    (s.setCls n c).checkWord = s.checkWord := rfl
@[simp] theorem State.setCls_lastStart (s : State) (n : Nat) (c : ClassRec) :
    (s.setCls n c).lastStart = s.lastStart := rfl
@[simp] theorem State.setCls_missed (s : State) (n : Nat) (c : ClassRec) :
    (s.setCls n c).missed = s.missed := rfl
@[simp] theorem State.setCls_minuteCount (s : State) (n : Nat) (c : ClassRec) :
    (s.setCls n c).minuteCount = s.minuteCount := rfl
@[simp] theorem State.setCls_clock (s : State) (n : Nat) (c : ClassRec) :
    (s.setCls n c).clock = s.clock := rfl
@[simp] theorem State.setCls_patternPhase (s : State) (n : Nat) (c : ClassRec) :
    (s.setCls n c).patternPhase = s.patternPhase := rfl
@[simp] theorem State.setCls_hostLink (s : State) (n : Nat) (c : ClassRec) :
    (s.setCls n c).hostLink = s.hostLink := rfl
@[simp] theorem State.setCls_floorLink (s : State) (n : Nat) (c : ClassRec) :
    (s.setCls n c).floorLink = s.floorLink := rfl
@[simp] theorem State.setCls_settings (s : State) (n : Nat) (c : ClassRec) :
    (s.setCls n c).settings = s.settings := rfl
@[simp] theorem State.setCls_grid (s : State) (n : Nat) (c : ClassRec) :
    (s.setCls n c).grid = s.grid := rfl
@[simp] theorem State.setCls_zones (s : State) (n : Nat) (c : ClassRec) :
    (s.setCls n c).zones = s.zones := rfl
@[simp] theorem State.setCls_carriers (s : State) (n : Nat) (c : ClassRec) :
    (s.setCls n c).carriers = s.carriers := rfl
@[simp] theorem State.setCls_containers (s : State) (n : Nat) (c : ClassRec) :
    (s.setCls n c).containers = s.containers := rfl
@[simp] theorem State.setCls_directory (s : State) (n : Nat) (c : ClassRec) :
    (s.setCls n c).directory = s.directory := rfl
@[simp] theorem State.setCls_batches (s : State) (n : Nat) (c : ClassRec) :
    (s.setCls n c).batches = s.batches := rfl
@[simp] theorem State.setCls_quiesce (s : State) (n : Nat) (c : ClassRec) :
    (s.setCls n c).quiesce = s.quiesce := rfl
@[simp] theorem State.setCls_nextBatch (s : State) (n : Nat) (c : ClassRec) :
    (s.setCls n c).nextBatch = s.nextBatch := rfl
@[simp] theorem State.setCls_lastServed (s : State) (n : Nat) (c : ClassRec) :
    (s.setCls n c).lastServed = s.lastServed := rfl
@[simp] theorem State.setCls_portCount (s : State) (n : Nat) (c : ClassRec) :
    (s.setCls n c).portCount = s.portCount := rfl
@[simp] theorem State.setCls_owed (s : State) (n : Nat) (c : ClassRec) :
    (s.setCls n c).owed = s.owed := rfl
@[simp] theorem State.setCls_claims (s : State) (n : Nat) (c : ClassRec) :
    (s.setCls n c).claims = s.claims := rfl
@[simp] theorem State.setCls_capture (s : State) (n : Nat) (c : ClassRec) :
    (s.setCls n c).capture = s.capture := rfl
@[simp] theorem State.setCls_moreFaults (s : State) (n : Nat) (c : ClassRec) :
    (s.setCls n c).moreFaults = s.moreFaults := rfl
@[simp] theorem State.setCls_watch (s : State) (n : Nat) (c : ClassRec) :
    (s.setCls n c).watch = s.watch := rfl
@[simp] theorem State.setCls_alerts (s : State) (n : Nat) (c : ClassRec) :
    (s.setCls n c).alerts = s.alerts := rfl
@[simp] theorem State.setCls_overflow (s : State) (n : Nat) (c : ClassRec) :
    (s.setCls n c).overflow = s.overflow := rfl
@[simp] theorem State.setCls_doorLevel (s : State) (n : Nat) (c : ClassRec) :
    (s.setCls n c).doorLevel = s.doorLevel := rfl

/-! setCarrier -/

@[simp] theorem State.setCarrier_pending (s : State) (n : Nat) (c : Carrier) :
    (s.setCarrier n c).pending = s.pending := rfl
@[simp] theorem State.setCarrier_line (s : State) (n : Nat) (c : Carrier) :
    (s.setCarrier n c).line = s.line := rfl
@[simp] theorem State.setCarrier_heldOver (s : State) (n : Nat) (c : Carrier) :
    (s.setCarrier n c).heldOver = s.heldOver := rfl
@[simp] theorem State.setCarrier_power (s : State) (n : Nat) (c : Carrier) :
    (s.setCarrier n c).power = s.power := rfl
@[simp] theorem State.setCarrier_windDown (s : State) (n : Nat) (c : Carrier) :
    (s.setCarrier n c).windDown = s.windDown := rfl
@[simp] theorem State.setCarrier_resetAsserted (s : State) (n : Nat) (c : Carrier) :
    (s.setCarrier n c).resetAsserted = s.resetAsserted := rfl
@[simp] theorem State.setCarrier_checkWord (s : State) (n : Nat) (c : Carrier) :
    (s.setCarrier n c).checkWord = s.checkWord := rfl
@[simp] theorem State.setCarrier_lastStart (s : State) (n : Nat) (c : Carrier) :
    (s.setCarrier n c).lastStart = s.lastStart := rfl
@[simp] theorem State.setCarrier_missed (s : State) (n : Nat) (c : Carrier) :
    (s.setCarrier n c).missed = s.missed := rfl
@[simp] theorem State.setCarrier_minuteCount (s : State) (n : Nat) (c : Carrier) :
    (s.setCarrier n c).minuteCount = s.minuteCount := rfl
@[simp] theorem State.setCarrier_clock (s : State) (n : Nat) (c : Carrier) :
    (s.setCarrier n c).clock = s.clock := rfl
@[simp] theorem State.setCarrier_patternPhase (s : State) (n : Nat) (c : Carrier) :
    (s.setCarrier n c).patternPhase = s.patternPhase := rfl
@[simp] theorem State.setCarrier_hostLink (s : State) (n : Nat) (c : Carrier) :
    (s.setCarrier n c).hostLink = s.hostLink := rfl
@[simp] theorem State.setCarrier_floorLink (s : State) (n : Nat) (c : Carrier) :
    (s.setCarrier n c).floorLink = s.floorLink := rfl
@[simp] theorem State.setCarrier_settings (s : State) (n : Nat) (c : Carrier) :
    (s.setCarrier n c).settings = s.settings := rfl
@[simp] theorem State.setCarrier_grid (s : State) (n : Nat) (c : Carrier) :
    (s.setCarrier n c).grid = s.grid := rfl
@[simp] theorem State.setCarrier_zones (s : State) (n : Nat) (c : Carrier) :
    (s.setCarrier n c).zones = s.zones := rfl
@[simp] theorem State.setCarrier_classes (s : State) (n : Nat) (c : Carrier) :
    (s.setCarrier n c).classes = s.classes := rfl
@[simp] theorem State.setCarrier_containers (s : State) (n : Nat) (c : Carrier) :
    (s.setCarrier n c).containers = s.containers := rfl
@[simp] theorem State.setCarrier_directory (s : State) (n : Nat) (c : Carrier) :
    (s.setCarrier n c).directory = s.directory := rfl
@[simp] theorem State.setCarrier_batches (s : State) (n : Nat) (c : Carrier) :
    (s.setCarrier n c).batches = s.batches := rfl
@[simp] theorem State.setCarrier_quiesce (s : State) (n : Nat) (c : Carrier) :
    (s.setCarrier n c).quiesce = s.quiesce := rfl
@[simp] theorem State.setCarrier_nextBatch (s : State) (n : Nat) (c : Carrier) :
    (s.setCarrier n c).nextBatch = s.nextBatch := rfl
@[simp] theorem State.setCarrier_lastServed (s : State) (n : Nat) (c : Carrier) :
    (s.setCarrier n c).lastServed = s.lastServed := rfl
@[simp] theorem State.setCarrier_portCount (s : State) (n : Nat) (c : Carrier) :
    (s.setCarrier n c).portCount = s.portCount := rfl
@[simp] theorem State.setCarrier_owed (s : State) (n : Nat) (c : Carrier) :
    (s.setCarrier n c).owed = s.owed := rfl
@[simp] theorem State.setCarrier_claims (s : State) (n : Nat) (c : Carrier) :
    (s.setCarrier n c).claims = s.claims := rfl
@[simp] theorem State.setCarrier_capture (s : State) (n : Nat) (c : Carrier) :
    (s.setCarrier n c).capture = s.capture := rfl
@[simp] theorem State.setCarrier_moreFaults (s : State) (n : Nat) (c : Carrier) :
    (s.setCarrier n c).moreFaults = s.moreFaults := rfl
@[simp] theorem State.setCarrier_watch (s : State) (n : Nat) (c : Carrier) :
    (s.setCarrier n c).watch = s.watch := rfl
@[simp] theorem State.setCarrier_alerts (s : State) (n : Nat) (c : Carrier) :
    (s.setCarrier n c).alerts = s.alerts := rfl
@[simp] theorem State.setCarrier_overflow (s : State) (n : Nat) (c : Carrier) :
    (s.setCarrier n c).overflow = s.overflow := rfl
@[simp] theorem State.setCarrier_doorLevel (s : State) (n : Nat) (c : Carrier) :
    (s.setCarrier n c).doorLevel = s.doorLevel := rfl

/-! setContainer -/

@[simp] theorem State.setContainer_pending (s : State) (n : Nat) (c : Container) :
    (s.setContainer n c).pending = s.pending := rfl
@[simp] theorem State.setContainer_line (s : State) (n : Nat) (c : Container) :
    (s.setContainer n c).line = s.line := rfl
@[simp] theorem State.setContainer_heldOver (s : State) (n : Nat) (c : Container) :
    (s.setContainer n c).heldOver = s.heldOver := rfl
@[simp] theorem State.setContainer_power (s : State) (n : Nat) (c : Container) :
    (s.setContainer n c).power = s.power := rfl
@[simp] theorem State.setContainer_windDown (s : State) (n : Nat) (c : Container) :
    (s.setContainer n c).windDown = s.windDown := rfl
@[simp] theorem State.setContainer_resetAsserted (s : State) (n : Nat) (c : Container) :
    (s.setContainer n c).resetAsserted = s.resetAsserted := rfl
@[simp] theorem State.setContainer_checkWord (s : State) (n : Nat) (c : Container) :
    (s.setContainer n c).checkWord = s.checkWord := rfl
@[simp] theorem State.setContainer_lastStart (s : State) (n : Nat) (c : Container) :
    (s.setContainer n c).lastStart = s.lastStart := rfl
@[simp] theorem State.setContainer_missed (s : State) (n : Nat) (c : Container) :
    (s.setContainer n c).missed = s.missed := rfl
@[simp] theorem State.setContainer_minuteCount (s : State) (n : Nat) (c : Container) :
    (s.setContainer n c).minuteCount = s.minuteCount := rfl
@[simp] theorem State.setContainer_clock (s : State) (n : Nat) (c : Container) :
    (s.setContainer n c).clock = s.clock := rfl
@[simp] theorem State.setContainer_patternPhase (s : State) (n : Nat) (c : Container) :
    (s.setContainer n c).patternPhase = s.patternPhase := rfl
@[simp] theorem State.setContainer_hostLink (s : State) (n : Nat) (c : Container) :
    (s.setContainer n c).hostLink = s.hostLink := rfl
@[simp] theorem State.setContainer_floorLink (s : State) (n : Nat) (c : Container) :
    (s.setContainer n c).floorLink = s.floorLink := rfl
@[simp] theorem State.setContainer_settings (s : State) (n : Nat) (c : Container) :
    (s.setContainer n c).settings = s.settings := rfl
@[simp] theorem State.setContainer_grid (s : State) (n : Nat) (c : Container) :
    (s.setContainer n c).grid = s.grid := rfl
@[simp] theorem State.setContainer_zones (s : State) (n : Nat) (c : Container) :
    (s.setContainer n c).zones = s.zones := rfl
@[simp] theorem State.setContainer_classes (s : State) (n : Nat) (c : Container) :
    (s.setContainer n c).classes = s.classes := rfl
@[simp] theorem State.setContainer_carriers (s : State) (n : Nat) (c : Container) :
    (s.setContainer n c).carriers = s.carriers := rfl
@[simp] theorem State.setContainer_directory (s : State) (n : Nat) (c : Container) :
    (s.setContainer n c).directory = s.directory := rfl
@[simp] theorem State.setContainer_batches (s : State) (n : Nat) (c : Container) :
    (s.setContainer n c).batches = s.batches := rfl
@[simp] theorem State.setContainer_quiesce (s : State) (n : Nat) (c : Container) :
    (s.setContainer n c).quiesce = s.quiesce := rfl
@[simp] theorem State.setContainer_nextBatch (s : State) (n : Nat) (c : Container) :
    (s.setContainer n c).nextBatch = s.nextBatch := rfl
@[simp] theorem State.setContainer_lastServed (s : State) (n : Nat) (c : Container) :
    (s.setContainer n c).lastServed = s.lastServed := rfl
@[simp] theorem State.setContainer_portCount (s : State) (n : Nat) (c : Container) :
    (s.setContainer n c).portCount = s.portCount := rfl
@[simp] theorem State.setContainer_owed (s : State) (n : Nat) (c : Container) :
    (s.setContainer n c).owed = s.owed := rfl
@[simp] theorem State.setContainer_claims (s : State) (n : Nat) (c : Container) :
    (s.setContainer n c).claims = s.claims := rfl
@[simp] theorem State.setContainer_capture (s : State) (n : Nat) (c : Container) :
    (s.setContainer n c).capture = s.capture := rfl
@[simp] theorem State.setContainer_moreFaults (s : State) (n : Nat) (c : Container) :
    (s.setContainer n c).moreFaults = s.moreFaults := rfl
@[simp] theorem State.setContainer_watch (s : State) (n : Nat) (c : Container) :
    (s.setContainer n c).watch = s.watch := rfl
@[simp] theorem State.setContainer_alerts (s : State) (n : Nat) (c : Container) :
    (s.setContainer n c).alerts = s.alerts := rfl
@[simp] theorem State.setContainer_overflow (s : State) (n : Nat) (c : Container) :
    (s.setContainer n c).overflow = s.overflow := rfl
@[simp] theorem State.setContainer_doorLevel (s : State) (n : Nat) (c : Container) :
    (s.setContainer n c).doorLevel = s.doorLevel := rfl

/-! modZone -/

@[simp] theorem State.modZone_pending (s : State) (n : Nat) (g : Zone → Zone) :
    (s.modZone n g).pending = s.pending := rfl
@[simp] theorem State.modZone_line (s : State) (n : Nat) (g : Zone → Zone) :
    (s.modZone n g).line = s.line := rfl
@[simp] theorem State.modZone_heldOver (s : State) (n : Nat) (g : Zone → Zone) :
    (s.modZone n g).heldOver = s.heldOver := rfl
@[simp] theorem State.modZone_power (s : State) (n : Nat) (g : Zone → Zone) :
    (s.modZone n g).power = s.power := rfl
@[simp] theorem State.modZone_windDown (s : State) (n : Nat) (g : Zone → Zone) :
    (s.modZone n g).windDown = s.windDown := rfl
@[simp] theorem State.modZone_resetAsserted (s : State) (n : Nat) (g : Zone → Zone) :
    (s.modZone n g).resetAsserted = s.resetAsserted := rfl
@[simp] theorem State.modZone_checkWord (s : State) (n : Nat) (g : Zone → Zone) :
    (s.modZone n g).checkWord = s.checkWord := rfl
@[simp] theorem State.modZone_lastStart (s : State) (n : Nat) (g : Zone → Zone) :
    (s.modZone n g).lastStart = s.lastStart := rfl
@[simp] theorem State.modZone_missed (s : State) (n : Nat) (g : Zone → Zone) :
    (s.modZone n g).missed = s.missed := rfl
@[simp] theorem State.modZone_minuteCount (s : State) (n : Nat) (g : Zone → Zone) :
    (s.modZone n g).minuteCount = s.minuteCount := rfl
@[simp] theorem State.modZone_clock (s : State) (n : Nat) (g : Zone → Zone) :
    (s.modZone n g).clock = s.clock := rfl
@[simp] theorem State.modZone_patternPhase (s : State) (n : Nat) (g : Zone → Zone) :
    (s.modZone n g).patternPhase = s.patternPhase := rfl
@[simp] theorem State.modZone_hostLink (s : State) (n : Nat) (g : Zone → Zone) :
    (s.modZone n g).hostLink = s.hostLink := rfl
@[simp] theorem State.modZone_floorLink (s : State) (n : Nat) (g : Zone → Zone) :
    (s.modZone n g).floorLink = s.floorLink := rfl
@[simp] theorem State.modZone_settings (s : State) (n : Nat) (g : Zone → Zone) :
    (s.modZone n g).settings = s.settings := rfl
@[simp] theorem State.modZone_grid (s : State) (n : Nat) (g : Zone → Zone) :
    (s.modZone n g).grid = s.grid := rfl
@[simp] theorem State.modZone_classes (s : State) (n : Nat) (g : Zone → Zone) :
    (s.modZone n g).classes = s.classes := rfl
@[simp] theorem State.modZone_carriers (s : State) (n : Nat) (g : Zone → Zone) :
    (s.modZone n g).carriers = s.carriers := rfl
@[simp] theorem State.modZone_containers (s : State) (n : Nat) (g : Zone → Zone) :
    (s.modZone n g).containers = s.containers := rfl
@[simp] theorem State.modZone_directory (s : State) (n : Nat) (g : Zone → Zone) :
    (s.modZone n g).directory = s.directory := rfl
@[simp] theorem State.modZone_batches (s : State) (n : Nat) (g : Zone → Zone) :
    (s.modZone n g).batches = s.batches := rfl
@[simp] theorem State.modZone_quiesce (s : State) (n : Nat) (g : Zone → Zone) :
    (s.modZone n g).quiesce = s.quiesce := rfl
@[simp] theorem State.modZone_nextBatch (s : State) (n : Nat) (g : Zone → Zone) :
    (s.modZone n g).nextBatch = s.nextBatch := rfl
@[simp] theorem State.modZone_lastServed (s : State) (n : Nat) (g : Zone → Zone) :
    (s.modZone n g).lastServed = s.lastServed := rfl
@[simp] theorem State.modZone_portCount (s : State) (n : Nat) (g : Zone → Zone) :
    (s.modZone n g).portCount = s.portCount := rfl
@[simp] theorem State.modZone_owed (s : State) (n : Nat) (g : Zone → Zone) :
    (s.modZone n g).owed = s.owed := rfl
@[simp] theorem State.modZone_claims (s : State) (n : Nat) (g : Zone → Zone) :
    (s.modZone n g).claims = s.claims := rfl
@[simp] theorem State.modZone_capture (s : State) (n : Nat) (g : Zone → Zone) :
    (s.modZone n g).capture = s.capture := rfl
@[simp] theorem State.modZone_moreFaults (s : State) (n : Nat) (g : Zone → Zone) :
    (s.modZone n g).moreFaults = s.moreFaults := rfl
@[simp] theorem State.modZone_watch (s : State) (n : Nat) (g : Zone → Zone) :
    (s.modZone n g).watch = s.watch := rfl
@[simp] theorem State.modZone_alerts (s : State) (n : Nat) (g : Zone → Zone) :
    (s.modZone n g).alerts = s.alerts := rfl
@[simp] theorem State.modZone_overflow (s : State) (n : Nat) (g : Zone → Zone) :
    (s.modZone n g).overflow = s.overflow := rfl
@[simp] theorem State.modZone_doorLevel (s : State) (n : Nat) (g : Zone → Zone) :
    (s.modZone n g).doorLevel = s.doorLevel := rfl

/-! modCarrier -/

@[simp] theorem State.modCarrier_pending (s : State) (n : Nat) (g : Carrier → Carrier) :
    (s.modCarrier n g).pending = s.pending := by unfold State.modCarrier; split <;> rfl
@[simp] theorem State.modCarrier_line (s : State) (n : Nat) (g : Carrier → Carrier) :
    (s.modCarrier n g).line = s.line := by unfold State.modCarrier; split <;> rfl
@[simp] theorem State.modCarrier_heldOver (s : State) (n : Nat) (g : Carrier → Carrier) :
    (s.modCarrier n g).heldOver = s.heldOver := by unfold State.modCarrier; split <;> rfl
@[simp] theorem State.modCarrier_power (s : State) (n : Nat) (g : Carrier → Carrier) :
    (s.modCarrier n g).power = s.power := by unfold State.modCarrier; split <;> rfl
@[simp] theorem State.modCarrier_windDown (s : State) (n : Nat) (g : Carrier → Carrier) :
    (s.modCarrier n g).windDown = s.windDown := by unfold State.modCarrier; split <;> rfl
@[simp] theorem State.modCarrier_resetAsserted (s : State) (n : Nat) (g : Carrier → Carrier) :
    (s.modCarrier n g).resetAsserted = s.resetAsserted := by unfold State.modCarrier; split <;> rfl
@[simp] theorem State.modCarrier_checkWord (s : State) (n : Nat) (g : Carrier → Carrier) :
    (s.modCarrier n g).checkWord = s.checkWord := by unfold State.modCarrier; split <;> rfl
@[simp] theorem State.modCarrier_lastStart (s : State) (n : Nat) (g : Carrier → Carrier) :
    (s.modCarrier n g).lastStart = s.lastStart := by unfold State.modCarrier; split <;> rfl
@[simp] theorem State.modCarrier_missed (s : State) (n : Nat) (g : Carrier → Carrier) :
    (s.modCarrier n g).missed = s.missed := by unfold State.modCarrier; split <;> rfl
@[simp] theorem State.modCarrier_minuteCount (s : State) (n : Nat) (g : Carrier → Carrier) :
    (s.modCarrier n g).minuteCount = s.minuteCount := by unfold State.modCarrier; split <;> rfl
@[simp] theorem State.modCarrier_clock (s : State) (n : Nat) (g : Carrier → Carrier) :
    (s.modCarrier n g).clock = s.clock := by unfold State.modCarrier; split <;> rfl
@[simp] theorem State.modCarrier_patternPhase (s : State) (n : Nat) (g : Carrier → Carrier) :
    (s.modCarrier n g).patternPhase = s.patternPhase := by unfold State.modCarrier; split <;> rfl
@[simp] theorem State.modCarrier_hostLink (s : State) (n : Nat) (g : Carrier → Carrier) :
    (s.modCarrier n g).hostLink = s.hostLink := by unfold State.modCarrier; split <;> rfl
@[simp] theorem State.modCarrier_floorLink (s : State) (n : Nat) (g : Carrier → Carrier) :
    (s.modCarrier n g).floorLink = s.floorLink := by unfold State.modCarrier; split <;> rfl
@[simp] theorem State.modCarrier_settings (s : State) (n : Nat) (g : Carrier → Carrier) :
    (s.modCarrier n g).settings = s.settings := by unfold State.modCarrier; split <;> rfl
@[simp] theorem State.modCarrier_grid (s : State) (n : Nat) (g : Carrier → Carrier) :
    (s.modCarrier n g).grid = s.grid := by unfold State.modCarrier; split <;> rfl
@[simp] theorem State.modCarrier_zones (s : State) (n : Nat) (g : Carrier → Carrier) :
    (s.modCarrier n g).zones = s.zones := by unfold State.modCarrier; split <;> rfl
@[simp] theorem State.modCarrier_classes (s : State) (n : Nat) (g : Carrier → Carrier) :
    (s.modCarrier n g).classes = s.classes := by unfold State.modCarrier; split <;> rfl
@[simp] theorem State.modCarrier_containers (s : State) (n : Nat) (g : Carrier → Carrier) :
    (s.modCarrier n g).containers = s.containers := by unfold State.modCarrier; split <;> rfl
@[simp] theorem State.modCarrier_directory (s : State) (n : Nat) (g : Carrier → Carrier) :
    (s.modCarrier n g).directory = s.directory := by unfold State.modCarrier; split <;> rfl
@[simp] theorem State.modCarrier_batches (s : State) (n : Nat) (g : Carrier → Carrier) :
    (s.modCarrier n g).batches = s.batches := by unfold State.modCarrier; split <;> rfl
@[simp] theorem State.modCarrier_quiesce (s : State) (n : Nat) (g : Carrier → Carrier) :
    (s.modCarrier n g).quiesce = s.quiesce := by unfold State.modCarrier; split <;> rfl
@[simp] theorem State.modCarrier_nextBatch (s : State) (n : Nat) (g : Carrier → Carrier) :
    (s.modCarrier n g).nextBatch = s.nextBatch := by unfold State.modCarrier; split <;> rfl
@[simp] theorem State.modCarrier_lastServed (s : State) (n : Nat) (g : Carrier → Carrier) :
    (s.modCarrier n g).lastServed = s.lastServed := by unfold State.modCarrier; split <;> rfl
@[simp] theorem State.modCarrier_portCount (s : State) (n : Nat) (g : Carrier → Carrier) :
    (s.modCarrier n g).portCount = s.portCount := by unfold State.modCarrier; split <;> rfl
@[simp] theorem State.modCarrier_owed (s : State) (n : Nat) (g : Carrier → Carrier) :
    (s.modCarrier n g).owed = s.owed := by unfold State.modCarrier; split <;> rfl
@[simp] theorem State.modCarrier_claims (s : State) (n : Nat) (g : Carrier → Carrier) :
    (s.modCarrier n g).claims = s.claims := by unfold State.modCarrier; split <;> rfl
@[simp] theorem State.modCarrier_capture (s : State) (n : Nat) (g : Carrier → Carrier) :
    (s.modCarrier n g).capture = s.capture := by unfold State.modCarrier; split <;> rfl
@[simp] theorem State.modCarrier_moreFaults (s : State) (n : Nat) (g : Carrier → Carrier) :
    (s.modCarrier n g).moreFaults = s.moreFaults := by unfold State.modCarrier; split <;> rfl
@[simp] theorem State.modCarrier_watch (s : State) (n : Nat) (g : Carrier → Carrier) :
    (s.modCarrier n g).watch = s.watch := by unfold State.modCarrier; split <;> rfl
@[simp] theorem State.modCarrier_alerts (s : State) (n : Nat) (g : Carrier → Carrier) :
    (s.modCarrier n g).alerts = s.alerts := by unfold State.modCarrier; split <;> rfl
@[simp] theorem State.modCarrier_overflow (s : State) (n : Nat) (g : Carrier → Carrier) :
    (s.modCarrier n g).overflow = s.overflow := by unfold State.modCarrier; split <;> rfl
@[simp] theorem State.modCarrier_doorLevel (s : State) (n : Nat) (g : Carrier → Carrier) :
    (s.modCarrier n g).doorLevel = s.doorLevel := by unfold State.modCarrier; split <;> rfl

/-! modContainer -/

@[simp] theorem State.modContainer_pending (s : State) (n : Nat) (g : Container → Container) :
    (s.modContainer n g).pending = s.pending := by unfold State.modContainer; split <;> rfl
@[simp] theorem State.modContainer_line (s : State) (n : Nat) (g : Container → Container) :
    (s.modContainer n g).line = s.line := by unfold State.modContainer; split <;> rfl
@[simp] theorem State.modContainer_heldOver (s : State) (n : Nat) (g : Container → Container) :
    (s.modContainer n g).heldOver = s.heldOver := by unfold State.modContainer; split <;> rfl
@[simp] theorem State.modContainer_power (s : State) (n : Nat) (g : Container → Container) :
    (s.modContainer n g).power = s.power := by unfold State.modContainer; split <;> rfl
@[simp] theorem State.modContainer_windDown (s : State) (n : Nat) (g : Container → Container) :
    (s.modContainer n g).windDown = s.windDown := by unfold State.modContainer; split <;> rfl
@[simp] theorem State.modContainer_resetAsserted (s : State) (n : Nat) (g : Container → Container) :
    (s.modContainer n g).resetAsserted = s.resetAsserted := by unfold State.modContainer; split <;> rfl
@[simp] theorem State.modContainer_checkWord (s : State) (n : Nat) (g : Container → Container) :
    (s.modContainer n g).checkWord = s.checkWord := by unfold State.modContainer; split <;> rfl
@[simp] theorem State.modContainer_lastStart (s : State) (n : Nat) (g : Container → Container) :
    (s.modContainer n g).lastStart = s.lastStart := by unfold State.modContainer; split <;> rfl
@[simp] theorem State.modContainer_missed (s : State) (n : Nat) (g : Container → Container) :
    (s.modContainer n g).missed = s.missed := by unfold State.modContainer; split <;> rfl
@[simp] theorem State.modContainer_minuteCount (s : State) (n : Nat) (g : Container → Container) :
    (s.modContainer n g).minuteCount = s.minuteCount := by unfold State.modContainer; split <;> rfl
@[simp] theorem State.modContainer_clock (s : State) (n : Nat) (g : Container → Container) :
    (s.modContainer n g).clock = s.clock := by unfold State.modContainer; split <;> rfl
@[simp] theorem State.modContainer_patternPhase (s : State) (n : Nat) (g : Container → Container) :
    (s.modContainer n g).patternPhase = s.patternPhase := by unfold State.modContainer; split <;> rfl
@[simp] theorem State.modContainer_hostLink (s : State) (n : Nat) (g : Container → Container) :
    (s.modContainer n g).hostLink = s.hostLink := by unfold State.modContainer; split <;> rfl
@[simp] theorem State.modContainer_floorLink (s : State) (n : Nat) (g : Container → Container) :
    (s.modContainer n g).floorLink = s.floorLink := by unfold State.modContainer; split <;> rfl
@[simp] theorem State.modContainer_settings (s : State) (n : Nat) (g : Container → Container) :
    (s.modContainer n g).settings = s.settings := by unfold State.modContainer; split <;> rfl
@[simp] theorem State.modContainer_grid (s : State) (n : Nat) (g : Container → Container) :
    (s.modContainer n g).grid = s.grid := by unfold State.modContainer; split <;> rfl
@[simp] theorem State.modContainer_zones (s : State) (n : Nat) (g : Container → Container) :
    (s.modContainer n g).zones = s.zones := by unfold State.modContainer; split <;> rfl
@[simp] theorem State.modContainer_classes (s : State) (n : Nat) (g : Container → Container) :
    (s.modContainer n g).classes = s.classes := by unfold State.modContainer; split <;> rfl
@[simp] theorem State.modContainer_carriers (s : State) (n : Nat) (g : Container → Container) :
    (s.modContainer n g).carriers = s.carriers := by unfold State.modContainer; split <;> rfl
@[simp] theorem State.modContainer_directory (s : State) (n : Nat) (g : Container → Container) :
    (s.modContainer n g).directory = s.directory := by unfold State.modContainer; split <;> rfl
@[simp] theorem State.modContainer_batches (s : State) (n : Nat) (g : Container → Container) :
    (s.modContainer n g).batches = s.batches := by unfold State.modContainer; split <;> rfl
@[simp] theorem State.modContainer_quiesce (s : State) (n : Nat) (g : Container → Container) :
    (s.modContainer n g).quiesce = s.quiesce := by unfold State.modContainer; split <;> rfl
@[simp] theorem State.modContainer_nextBatch (s : State) (n : Nat) (g : Container → Container) :
    (s.modContainer n g).nextBatch = s.nextBatch := by unfold State.modContainer; split <;> rfl
@[simp] theorem State.modContainer_lastServed (s : State) (n : Nat) (g : Container → Container) :
    (s.modContainer n g).lastServed = s.lastServed := by unfold State.modContainer; split <;> rfl
@[simp] theorem State.modContainer_portCount (s : State) (n : Nat) (g : Container → Container) :
    (s.modContainer n g).portCount = s.portCount := by unfold State.modContainer; split <;> rfl
@[simp] theorem State.modContainer_owed (s : State) (n : Nat) (g : Container → Container) :
    (s.modContainer n g).owed = s.owed := by unfold State.modContainer; split <;> rfl
@[simp] theorem State.modContainer_claims (s : State) (n : Nat) (g : Container → Container) :
    (s.modContainer n g).claims = s.claims := by unfold State.modContainer; split <;> rfl
@[simp] theorem State.modContainer_capture (s : State) (n : Nat) (g : Container → Container) :
    (s.modContainer n g).capture = s.capture := by unfold State.modContainer; split <;> rfl
@[simp] theorem State.modContainer_moreFaults (s : State) (n : Nat) (g : Container → Container) :
    (s.modContainer n g).moreFaults = s.moreFaults := by unfold State.modContainer; split <;> rfl
@[simp] theorem State.modContainer_watch (s : State) (n : Nat) (g : Container → Container) :
    (s.modContainer n g).watch = s.watch := by unfold State.modContainer; split <;> rfl
@[simp] theorem State.modContainer_alerts (s : State) (n : Nat) (g : Container → Container) :
    (s.modContainer n g).alerts = s.alerts := by unfold State.modContainer; split <;> rfl
@[simp] theorem State.modContainer_overflow (s : State) (n : Nat) (g : Container → Container) :
    (s.modContainer n g).overflow = s.overflow := by unfold State.modContainer; split <;> rfl
@[simp] theorem State.modContainer_doorLevel (s : State) (n : Nat) (g : Container → Container) :
    (s.modContainer n g).doorLevel = s.doorLevel := by unfold State.modContainer; split <;> rfl

/-! modZoneOpt -/

@[simp] theorem State.modZoneOpt_pending (s : State) (n : Option Nat) (g : Zone → Zone) :
    (s.modZoneOpt n g).pending = s.pending := by unfold State.modZoneOpt; split <;> rfl
@[simp] theorem State.modZoneOpt_line (s : State) (n : Option Nat) (g : Zone → Zone) :
    (s.modZoneOpt n g).line = s.line := by unfold State.modZoneOpt; split <;> rfl
@[simp] theorem State.modZoneOpt_heldOver (s : State) (n : Option Nat) (g : Zone → Zone) :
    (s.modZoneOpt n g).heldOver = s.heldOver := by unfold State.modZoneOpt; split <;> rfl
@[simp] theorem State.modZoneOpt_power (s : State) (n : Option Nat) (g : Zone → Zone) :
    (s.modZoneOpt n g).power = s.power := by unfold State.modZoneOpt; split <;> rfl
@[simp] theorem State.modZoneOpt_windDown (s : State) (n : Option Nat) (g : Zone → Zone) :
    (s.modZoneOpt n g).windDown = s.windDown := by unfold State.modZoneOpt; split <;> rfl
@[simp] theorem State.modZoneOpt_resetAsserted (s : State) (n : Option Nat) (g : Zone → Zone) :
    (s.modZoneOpt n g).resetAsserted = s.resetAsserted := by unfold State.modZoneOpt; split <;> rfl
@[simp] theorem State.modZoneOpt_checkWord (s : State) (n : Option Nat) (g : Zone → Zone) :
    (s.modZoneOpt n g).checkWord = s.checkWord := by unfold State.modZoneOpt; split <;> rfl
@[simp] theorem State.modZoneOpt_lastStart (s : State) (n : Option Nat) (g : Zone → Zone) :
    (s.modZoneOpt n g).lastStart = s.lastStart := by unfold State.modZoneOpt; split <;> rfl
@[simp] theorem State.modZoneOpt_missed (s : State) (n : Option Nat) (g : Zone → Zone) :
    (s.modZoneOpt n g).missed = s.missed := by unfold State.modZoneOpt; split <;> rfl
@[simp] theorem State.modZoneOpt_minuteCount (s : State) (n : Option Nat) (g : Zone → Zone) :
    (s.modZoneOpt n g).minuteCount = s.minuteCount := by unfold State.modZoneOpt; split <;> rfl
@[simp] theorem State.modZoneOpt_clock (s : State) (n : Option Nat) (g : Zone → Zone) :
    (s.modZoneOpt n g).clock = s.clock := by unfold State.modZoneOpt; split <;> rfl
@[simp] theorem State.modZoneOpt_patternPhase (s : State) (n : Option Nat) (g : Zone → Zone) :
    (s.modZoneOpt n g).patternPhase = s.patternPhase := by unfold State.modZoneOpt; split <;> rfl
@[simp] theorem State.modZoneOpt_hostLink (s : State) (n : Option Nat) (g : Zone → Zone) :
    (s.modZoneOpt n g).hostLink = s.hostLink := by unfold State.modZoneOpt; split <;> rfl
@[simp] theorem State.modZoneOpt_floorLink (s : State) (n : Option Nat) (g : Zone → Zone) :
    (s.modZoneOpt n g).floorLink = s.floorLink := by unfold State.modZoneOpt; split <;> rfl
@[simp] theorem State.modZoneOpt_settings (s : State) (n : Option Nat) (g : Zone → Zone) :
    (s.modZoneOpt n g).settings = s.settings := by unfold State.modZoneOpt; split <;> rfl
@[simp] theorem State.modZoneOpt_grid (s : State) (n : Option Nat) (g : Zone → Zone) :
    (s.modZoneOpt n g).grid = s.grid := by unfold State.modZoneOpt; split <;> rfl
@[simp] theorem State.modZoneOpt_classes (s : State) (n : Option Nat) (g : Zone → Zone) :
    (s.modZoneOpt n g).classes = s.classes := by unfold State.modZoneOpt; split <;> rfl
@[simp] theorem State.modZoneOpt_carriers (s : State) (n : Option Nat) (g : Zone → Zone) :
    (s.modZoneOpt n g).carriers = s.carriers := by unfold State.modZoneOpt; split <;> rfl
@[simp] theorem State.modZoneOpt_containers (s : State) (n : Option Nat) (g : Zone → Zone) :
    (s.modZoneOpt n g).containers = s.containers := by unfold State.modZoneOpt; split <;> rfl
@[simp] theorem State.modZoneOpt_directory (s : State) (n : Option Nat) (g : Zone → Zone) :
    (s.modZoneOpt n g).directory = s.directory := by unfold State.modZoneOpt; split <;> rfl
@[simp] theorem State.modZoneOpt_batches (s : State) (n : Option Nat) (g : Zone → Zone) :
    (s.modZoneOpt n g).batches = s.batches := by unfold State.modZoneOpt; split <;> rfl
@[simp] theorem State.modZoneOpt_quiesce (s : State) (n : Option Nat) (g : Zone → Zone) :
    (s.modZoneOpt n g).quiesce = s.quiesce := by unfold State.modZoneOpt; split <;> rfl
@[simp] theorem State.modZoneOpt_nextBatch (s : State) (n : Option Nat) (g : Zone → Zone) :
    (s.modZoneOpt n g).nextBatch = s.nextBatch := by unfold State.modZoneOpt; split <;> rfl
@[simp] theorem State.modZoneOpt_lastServed (s : State) (n : Option Nat) (g : Zone → Zone) :
    (s.modZoneOpt n g).lastServed = s.lastServed := by unfold State.modZoneOpt; split <;> rfl
@[simp] theorem State.modZoneOpt_portCount (s : State) (n : Option Nat) (g : Zone → Zone) :
    (s.modZoneOpt n g).portCount = s.portCount := by unfold State.modZoneOpt; split <;> rfl
@[simp] theorem State.modZoneOpt_owed (s : State) (n : Option Nat) (g : Zone → Zone) :
    (s.modZoneOpt n g).owed = s.owed := by unfold State.modZoneOpt; split <;> rfl
@[simp] theorem State.modZoneOpt_claims (s : State) (n : Option Nat) (g : Zone → Zone) :
    (s.modZoneOpt n g).claims = s.claims := by unfold State.modZoneOpt; split <;> rfl
@[simp] theorem State.modZoneOpt_capture (s : State) (n : Option Nat) (g : Zone → Zone) :
    (s.modZoneOpt n g).capture = s.capture := by unfold State.modZoneOpt; split <;> rfl
@[simp] theorem State.modZoneOpt_moreFaults (s : State) (n : Option Nat) (g : Zone → Zone) :
    (s.modZoneOpt n g).moreFaults = s.moreFaults := by unfold State.modZoneOpt; split <;> rfl
@[simp] theorem State.modZoneOpt_watch (s : State) (n : Option Nat) (g : Zone → Zone) :
    (s.modZoneOpt n g).watch = s.watch := by unfold State.modZoneOpt; split <;> rfl
@[simp] theorem State.modZoneOpt_alerts (s : State) (n : Option Nat) (g : Zone → Zone) :
    (s.modZoneOpt n g).alerts = s.alerts := by unfold State.modZoneOpt; split <;> rfl
@[simp] theorem State.modZoneOpt_overflow (s : State) (n : Option Nat) (g : Zone → Zone) :
    (s.modZoneOpt n g).overflow = s.overflow := by unfold State.modZoneOpt; split <;> rfl
@[simp] theorem State.modZoneOpt_doorLevel (s : State) (n : Option Nat) (g : Zone → Zone) :
    (s.modZoneOpt n g).doorLevel = s.doorLevel := by unfold State.modZoneOpt; split <;> rfl

/-! raise -/

@[simp] theorem State.raise_pending (s : State) (k : AlertKind) (subj : Subject) (v : Option AlertValue) :
    (s.raise k subj v).pending = s.pending := by
  simp only [State.raise]; split <;> (try split) <;> (try split) <;> rfl
@[simp] theorem State.raise_line (s : State) (k : AlertKind) (subj : Subject) (v : Option AlertValue) :
    (s.raise k subj v).line = s.line := by
  simp only [State.raise]; split <;> (try split) <;> (try split) <;> rfl
@[simp] theorem State.raise_heldOver (s : State) (k : AlertKind) (subj : Subject) (v : Option AlertValue) :
    (s.raise k subj v).heldOver = s.heldOver := by
  simp only [State.raise]; split <;> (try split) <;> (try split) <;> rfl
@[simp] theorem State.raise_power (s : State) (k : AlertKind) (subj : Subject) (v : Option AlertValue) :
    (s.raise k subj v).power = s.power := by
  simp only [State.raise]; split <;> (try split) <;> (try split) <;> rfl
@[simp] theorem State.raise_windDown (s : State) (k : AlertKind) (subj : Subject) (v : Option AlertValue) :
    (s.raise k subj v).windDown = s.windDown := by
  simp only [State.raise]; split <;> (try split) <;> (try split) <;> rfl
@[simp] theorem State.raise_resetAsserted (s : State) (k : AlertKind) (subj : Subject) (v : Option AlertValue) :
    (s.raise k subj v).resetAsserted = s.resetAsserted := by
  simp only [State.raise]; split <;> (try split) <;> (try split) <;> rfl
@[simp] theorem State.raise_checkWord (s : State) (k : AlertKind) (subj : Subject) (v : Option AlertValue) :
    (s.raise k subj v).checkWord = s.checkWord := by
  simp only [State.raise]; split <;> (try split) <;> (try split) <;> rfl
@[simp] theorem State.raise_lastStart (s : State) (k : AlertKind) (subj : Subject) (v : Option AlertValue) :
    (s.raise k subj v).lastStart = s.lastStart := by
  simp only [State.raise]; split <;> (try split) <;> (try split) <;> rfl
@[simp] theorem State.raise_missed (s : State) (k : AlertKind) (subj : Subject) (v : Option AlertValue) :
    (s.raise k subj v).missed = s.missed := by
  simp only [State.raise]; split <;> (try split) <;> (try split) <;> rfl
@[simp] theorem State.raise_minuteCount (s : State) (k : AlertKind) (subj : Subject) (v : Option AlertValue) :
    (s.raise k subj v).minuteCount = s.minuteCount := by
  simp only [State.raise]; split <;> (try split) <;> (try split) <;> rfl
@[simp] theorem State.raise_clock (s : State) (k : AlertKind) (subj : Subject) (v : Option AlertValue) :
    (s.raise k subj v).clock = s.clock := by
  simp only [State.raise]; split <;> (try split) <;> (try split) <;> rfl
@[simp] theorem State.raise_patternPhase (s : State) (k : AlertKind) (subj : Subject) (v : Option AlertValue) :
    (s.raise k subj v).patternPhase = s.patternPhase := by
  simp only [State.raise]; split <;> (try split) <;> (try split) <;> rfl
@[simp] theorem State.raise_hostLink (s : State) (k : AlertKind) (subj : Subject) (v : Option AlertValue) :
    (s.raise k subj v).hostLink = s.hostLink := by
  simp only [State.raise]; split <;> (try split) <;> (try split) <;> rfl
@[simp] theorem State.raise_floorLink (s : State) (k : AlertKind) (subj : Subject) (v : Option AlertValue) :
    (s.raise k subj v).floorLink = s.floorLink := by
  simp only [State.raise]; split <;> (try split) <;> (try split) <;> rfl
@[simp] theorem State.raise_settings (s : State) (k : AlertKind) (subj : Subject) (v : Option AlertValue) :
    (s.raise k subj v).settings = s.settings := by
  simp only [State.raise]; split <;> (try split) <;> (try split) <;> rfl
@[simp] theorem State.raise_grid (s : State) (k : AlertKind) (subj : Subject) (v : Option AlertValue) :
    (s.raise k subj v).grid = s.grid := by
  simp only [State.raise]; split <;> (try split) <;> (try split) <;> rfl
@[simp] theorem State.raise_zones (s : State) (k : AlertKind) (subj : Subject) (v : Option AlertValue) :
    (s.raise k subj v).zones = s.zones := by
  simp only [State.raise]; split <;> (try split) <;> (try split) <;> rfl
@[simp] theorem State.raise_classes (s : State) (k : AlertKind) (subj : Subject) (v : Option AlertValue) :
    (s.raise k subj v).classes = s.classes := by
  simp only [State.raise]; split <;> (try split) <;> (try split) <;> rfl
@[simp] theorem State.raise_carriers (s : State) (k : AlertKind) (subj : Subject) (v : Option AlertValue) :
    (s.raise k subj v).carriers = s.carriers := by
  simp only [State.raise]; split <;> (try split) <;> (try split) <;> rfl
@[simp] theorem State.raise_containers (s : State) (k : AlertKind) (subj : Subject) (v : Option AlertValue) :
    (s.raise k subj v).containers = s.containers := by
  simp only [State.raise]; split <;> (try split) <;> (try split) <;> rfl
@[simp] theorem State.raise_directory (s : State) (k : AlertKind) (subj : Subject) (v : Option AlertValue) :
    (s.raise k subj v).directory = s.directory := by
  simp only [State.raise]; split <;> (try split) <;> (try split) <;> rfl
@[simp] theorem State.raise_batches (s : State) (k : AlertKind) (subj : Subject) (v : Option AlertValue) :
    (s.raise k subj v).batches = s.batches := by
  simp only [State.raise]; split <;> (try split) <;> (try split) <;> rfl
@[simp] theorem State.raise_quiesce (s : State) (k : AlertKind) (subj : Subject) (v : Option AlertValue) :
    (s.raise k subj v).quiesce = s.quiesce := by
  simp only [State.raise]; split <;> (try split) <;> (try split) <;> rfl
@[simp] theorem State.raise_nextBatch (s : State) (k : AlertKind) (subj : Subject) (v : Option AlertValue) :
    (s.raise k subj v).nextBatch = s.nextBatch := by
  simp only [State.raise]; split <;> (try split) <;> (try split) <;> rfl
@[simp] theorem State.raise_lastServed (s : State) (k : AlertKind) (subj : Subject) (v : Option AlertValue) :
    (s.raise k subj v).lastServed = s.lastServed := by
  simp only [State.raise]; split <;> (try split) <;> (try split) <;> rfl
@[simp] theorem State.raise_portCount (s : State) (k : AlertKind) (subj : Subject) (v : Option AlertValue) :
    (s.raise k subj v).portCount = s.portCount := by
  simp only [State.raise]; split <;> (try split) <;> (try split) <;> rfl
@[simp] theorem State.raise_owed (s : State) (k : AlertKind) (subj : Subject) (v : Option AlertValue) :
    (s.raise k subj v).owed = s.owed := by
  simp only [State.raise]; split <;> (try split) <;> (try split) <;> rfl
@[simp] theorem State.raise_claims (s : State) (k : AlertKind) (subj : Subject) (v : Option AlertValue) :
    (s.raise k subj v).claims = s.claims := by
  simp only [State.raise]; split <;> (try split) <;> (try split) <;> rfl
@[simp] theorem State.raise_capture (s : State) (k : AlertKind) (subj : Subject) (v : Option AlertValue) :
    (s.raise k subj v).capture = s.capture := by
  simp only [State.raise]; split <;> (try split) <;> (try split) <;> rfl
@[simp] theorem State.raise_moreFaults (s : State) (k : AlertKind) (subj : Subject) (v : Option AlertValue) :
    (s.raise k subj v).moreFaults = s.moreFaults := by
  simp only [State.raise]; split <;> (try split) <;> (try split) <;> rfl
@[simp] theorem State.raise_watch (s : State) (k : AlertKind) (subj : Subject) (v : Option AlertValue) :
    (s.raise k subj v).watch = s.watch := by
  simp only [State.raise]; split <;> (try split) <;> (try split) <;> rfl
@[simp] theorem State.raise_doorLevel (s : State) (k : AlertKind) (subj : Subject) (v : Option AlertValue) :
    (s.raise k subj v).doorLevel = s.doorLevel := by
  simp only [State.raise]; split <;> (try split) <;> (try split) <;> rfl

/-! The arbiter's operations -/

@[simp] theorem State.grantPort_pending (s : State) (l : Link) :
    (s.grantPort l).pending = s.pending := rfl
@[simp] theorem State.grantPort_line (s : State) (l : Link) :
    (s.grantPort l).line = s.line := rfl
@[simp] theorem State.grantPort_power (s : State) (l : Link) :
    (s.grantPort l).power = s.power := rfl
@[simp] theorem State.grantPort_windDown (s : State) (l : Link) :
    (s.grantPort l).windDown = s.windDown := rfl
@[simp] theorem State.grantPort_resetAsserted (s : State) (l : Link) :
    (s.grantPort l).resetAsserted = s.resetAsserted := rfl
@[simp] theorem State.grantPort_checkWord (s : State) (l : Link) :
    (s.grantPort l).checkWord = s.checkWord := rfl
@[simp] theorem State.grantPort_lastStart (s : State) (l : Link) :
    (s.grantPort l).lastStart = s.lastStart := rfl
@[simp] theorem State.grantPort_missed (s : State) (l : Link) :
    (s.grantPort l).missed = s.missed := rfl
@[simp] theorem State.grantPort_minuteCount (s : State) (l : Link) :
    (s.grantPort l).minuteCount = s.minuteCount := rfl
@[simp] theorem State.grantPort_clock (s : State) (l : Link) :
    (s.grantPort l).clock = s.clock := rfl
@[simp] theorem State.grantPort_patternPhase (s : State) (l : Link) :
    (s.grantPort l).patternPhase = s.patternPhase := rfl
@[simp] theorem State.grantPort_hostLink (s : State) (l : Link) :
    (s.grantPort l).hostLink = s.hostLink := rfl
@[simp] theorem State.grantPort_floorLink (s : State) (l : Link) :
    (s.grantPort l).floorLink = s.floorLink := rfl
@[simp] theorem State.grantPort_settings (s : State) (l : Link) :
    (s.grantPort l).settings = s.settings := rfl
@[simp] theorem State.grantPort_grid (s : State) (l : Link) :
    (s.grantPort l).grid = s.grid := rfl
@[simp] theorem State.grantPort_zones (s : State) (l : Link) :
    (s.grantPort l).zones = s.zones := rfl
@[simp] theorem State.grantPort_classes (s : State) (l : Link) :
    (s.grantPort l).classes = s.classes := rfl
@[simp] theorem State.grantPort_carriers (s : State) (l : Link) :
    (s.grantPort l).carriers = s.carriers := rfl
@[simp] theorem State.grantPort_containers (s : State) (l : Link) :
    (s.grantPort l).containers = s.containers := rfl
@[simp] theorem State.grantPort_directory (s : State) (l : Link) :
    (s.grantPort l).directory = s.directory := rfl
@[simp] theorem State.grantPort_batches (s : State) (l : Link) :
    (s.grantPort l).batches = s.batches := rfl
@[simp] theorem State.grantPort_quiesce (s : State) (l : Link) :
    (s.grantPort l).quiesce = s.quiesce := rfl
@[simp] theorem State.grantPort_nextBatch (s : State) (l : Link) :
    (s.grantPort l).nextBatch = s.nextBatch := rfl
@[simp] theorem State.grantPort_claims (s : State) (l : Link) :
    (s.grantPort l).claims = s.claims := rfl
@[simp] theorem State.grantPort_capture (s : State) (l : Link) :
    (s.grantPort l).capture = s.capture := rfl
@[simp] theorem State.grantPort_moreFaults (s : State) (l : Link) :
    (s.grantPort l).moreFaults = s.moreFaults := rfl
@[simp] theorem State.grantPort_watch (s : State) (l : Link) :
    (s.grantPort l).watch = s.watch := rfl
@[simp] theorem State.grantPort_alerts (s : State) (l : Link) :
    (s.grantPort l).alerts = s.alerts := rfl
@[simp] theorem State.grantPort_overflow (s : State) (l : Link) :
    (s.grantPort l).overflow = s.overflow := rfl
@[simp] theorem State.grantPort_doorLevel (s : State) (l : Link) :
    (s.grantPort l).doorLevel = s.doorLevel := rfl
@[simp] theorem State.grantStep_pending (s : State) :
    (s.grantStep).pending = s.pending := rfl
@[simp] theorem State.grantStep_line (s : State) :
    (s.grantStep).line = s.line := rfl
@[simp] theorem State.grantStep_power (s : State) :
    (s.grantStep).power = s.power := rfl
@[simp] theorem State.grantStep_windDown (s : State) :
    (s.grantStep).windDown = s.windDown := rfl
@[simp] theorem State.grantStep_resetAsserted (s : State) :
    (s.grantStep).resetAsserted = s.resetAsserted := rfl
@[simp] theorem State.grantStep_checkWord (s : State) :
    (s.grantStep).checkWord = s.checkWord := rfl
@[simp] theorem State.grantStep_lastStart (s : State) :
    (s.grantStep).lastStart = s.lastStart := rfl
@[simp] theorem State.grantStep_missed (s : State) :
    (s.grantStep).missed = s.missed := rfl
@[simp] theorem State.grantStep_minuteCount (s : State) :
    (s.grantStep).minuteCount = s.minuteCount := rfl
@[simp] theorem State.grantStep_clock (s : State) :
    (s.grantStep).clock = s.clock := rfl
@[simp] theorem State.grantStep_patternPhase (s : State) :
    (s.grantStep).patternPhase = s.patternPhase := rfl
@[simp] theorem State.grantStep_hostLink (s : State) :
    (s.grantStep).hostLink = s.hostLink := rfl
@[simp] theorem State.grantStep_floorLink (s : State) :
    (s.grantStep).floorLink = s.floorLink := rfl
@[simp] theorem State.grantStep_settings (s : State) :
    (s.grantStep).settings = s.settings := rfl
@[simp] theorem State.grantStep_grid (s : State) :
    (s.grantStep).grid = s.grid := rfl
@[simp] theorem State.grantStep_zones (s : State) :
    (s.grantStep).zones = s.zones := rfl
@[simp] theorem State.grantStep_classes (s : State) :
    (s.grantStep).classes = s.classes := rfl
@[simp] theorem State.grantStep_carriers (s : State) :
    (s.grantStep).carriers = s.carriers := rfl
@[simp] theorem State.grantStep_containers (s : State) :
    (s.grantStep).containers = s.containers := rfl
@[simp] theorem State.grantStep_directory (s : State) :
    (s.grantStep).directory = s.directory := rfl
@[simp] theorem State.grantStep_batches (s : State) :
    (s.grantStep).batches = s.batches := rfl
@[simp] theorem State.grantStep_quiesce (s : State) :
    (s.grantStep).quiesce = s.quiesce := rfl
@[simp] theorem State.grantStep_nextBatch (s : State) :
    (s.grantStep).nextBatch = s.nextBatch := rfl
@[simp] theorem State.grantStep_lastServed (s : State) :
    (s.grantStep).lastServed = s.lastServed := rfl
@[simp] theorem State.grantStep_claims (s : State) :
    (s.grantStep).claims = s.claims := rfl
@[simp] theorem State.grantStep_capture (s : State) :
    (s.grantStep).capture = s.capture := rfl
@[simp] theorem State.grantStep_moreFaults (s : State) :
    (s.grantStep).moreFaults = s.moreFaults := rfl
@[simp] theorem State.grantStep_watch (s : State) :
    (s.grantStep).watch = s.watch := rfl
@[simp] theorem State.grantStep_alerts (s : State) :
    (s.grantStep).alerts = s.alerts := rfl
@[simp] theorem State.grantStep_overflow (s : State) :
    (s.grantStep).overflow = s.overflow := rfl
@[simp] theorem State.grantStep_doorLevel (s : State) :
    (s.grantStep).doorLevel = s.doorLevel := rfl
@[simp] theorem State.freeStore_pending (s : State) :
    (s.freeStore).pending = s.pending := by unfold State.freeStore; split <;> rfl
@[simp] theorem State.freeStore_line (s : State) :
    (s.freeStore).line = s.line := by unfold State.freeStore; split <;> rfl
@[simp] theorem State.freeStore_heldOver (s : State) :
    (s.freeStore).heldOver = s.heldOver := by unfold State.freeStore; split <;> rfl
@[simp] theorem State.freeStore_power (s : State) :
    (s.freeStore).power = s.power := by unfold State.freeStore; split <;> rfl
@[simp] theorem State.freeStore_windDown (s : State) :
    (s.freeStore).windDown = s.windDown := by unfold State.freeStore; split <;> rfl
@[simp] theorem State.freeStore_resetAsserted (s : State) :
    (s.freeStore).resetAsserted = s.resetAsserted := by unfold State.freeStore; split <;> rfl
@[simp] theorem State.freeStore_checkWord (s : State) :
    (s.freeStore).checkWord = s.checkWord := by unfold State.freeStore; split <;> rfl
@[simp] theorem State.freeStore_lastStart (s : State) :
    (s.freeStore).lastStart = s.lastStart := by unfold State.freeStore; split <;> rfl
@[simp] theorem State.freeStore_missed (s : State) :
    (s.freeStore).missed = s.missed := by unfold State.freeStore; split <;> rfl
@[simp] theorem State.freeStore_minuteCount (s : State) :
    (s.freeStore).minuteCount = s.minuteCount := by unfold State.freeStore; split <;> rfl
@[simp] theorem State.freeStore_clock (s : State) :
    (s.freeStore).clock = s.clock := by unfold State.freeStore; split <;> rfl
@[simp] theorem State.freeStore_patternPhase (s : State) :
    (s.freeStore).patternPhase = s.patternPhase := by unfold State.freeStore; split <;> rfl
@[simp] theorem State.freeStore_hostLink (s : State) :
    (s.freeStore).hostLink = s.hostLink := by unfold State.freeStore; split <;> rfl
@[simp] theorem State.freeStore_floorLink (s : State) :
    (s.freeStore).floorLink = s.floorLink := by unfold State.freeStore; split <;> rfl
@[simp] theorem State.freeStore_settings (s : State) :
    (s.freeStore).settings = s.settings := by unfold State.freeStore; split <;> rfl
@[simp] theorem State.freeStore_grid (s : State) :
    (s.freeStore).grid = s.grid := by unfold State.freeStore; split <;> rfl
@[simp] theorem State.freeStore_zones (s : State) :
    (s.freeStore).zones = s.zones := by unfold State.freeStore; split <;> rfl
@[simp] theorem State.freeStore_classes (s : State) :
    (s.freeStore).classes = s.classes := by unfold State.freeStore; split <;> rfl
@[simp] theorem State.freeStore_carriers (s : State) :
    (s.freeStore).carriers = s.carriers := by unfold State.freeStore; split <;> rfl
@[simp] theorem State.freeStore_containers (s : State) :
    (s.freeStore).containers = s.containers := by unfold State.freeStore; split <;> rfl
@[simp] theorem State.freeStore_directory (s : State) :
    (s.freeStore).directory = s.directory := by unfold State.freeStore; split <;> rfl
@[simp] theorem State.freeStore_batches (s : State) :
    (s.freeStore).batches = s.batches := by unfold State.freeStore; split <;> rfl
@[simp] theorem State.freeStore_quiesce (s : State) :
    (s.freeStore).quiesce = s.quiesce := by unfold State.freeStore; split <;> rfl
@[simp] theorem State.freeStore_nextBatch (s : State) :
    (s.freeStore).nextBatch = s.nextBatch := by unfold State.freeStore; split <;> rfl
@[simp] theorem State.freeStore_lastServed (s : State) :
    (s.freeStore).lastServed = s.lastServed := by unfold State.freeStore; split <;> rfl
@[simp] theorem State.freeStore_owed (s : State) :
    (s.freeStore).owed = s.owed := by unfold State.freeStore; split <;> rfl
@[simp] theorem State.freeStore_claims (s : State) :
    (s.freeStore).claims = s.claims := by unfold State.freeStore; split <;> rfl
@[simp] theorem State.freeStore_capture (s : State) :
    (s.freeStore).capture = s.capture := by unfold State.freeStore; split <;> rfl
@[simp] theorem State.freeStore_moreFaults (s : State) :
    (s.freeStore).moreFaults = s.moreFaults := by unfold State.freeStore; split <;> rfl
@[simp] theorem State.freeStore_watch (s : State) :
    (s.freeStore).watch = s.watch := by unfold State.freeStore; split <;> rfl
@[simp] theorem State.freeStore_alerts (s : State) :
    (s.freeStore).alerts = s.alerts := by unfold State.freeStore; split <;> rfl
@[simp] theorem State.freeStore_overflow (s : State) :
    (s.freeStore).overflow = s.overflow := by unfold State.freeStore; split <;> rfl
@[simp] theorem State.freeStore_doorLevel (s : State) :
    (s.freeStore).doorLevel = s.doorLevel := by unfold State.freeStore; split <;> rfl

end Sys2Proof.Machine
end

