-- ==== Sys2Proof/Laws/Serve.lean ====
section
/-! SUPPORT. Due events when none is due, and what serving a request comes to in each case. -/

namespace Sys2Proof.Machine

/-! Nothing due -/

theorem State.takeZoneDue_of_not_due {s : State} {n : Nat} (h1 : (s.zone n).expiryDue = false)
    (h2 : (s.zone n).graceDue = false) : s.takeZoneDue n = s := by
  simp [State.takeZoneDue, State.takeExpiry, State.takeGrace, h1, h2]

theorem foldl_fixed {α β : Type} (f : β → α → β) (b : β) :
    ∀ l : List α, (∀ a ∈ l, f b a = b) → l.foldl f b = b
  | [], _ => rfl
  | a :: l, h => by
    rw [List.foldl_cons, h a (by simp)]
    exact foldl_fixed f b l fun x hx => h x (by simp [hx])

/-- With no event due, taking the due events changes nothing. -/
theorem State.takeDue_of_quiet {s : State} (h : s.quiet = true) : s.takeDue = s := by
  simp only [State.quiet, Bool.and_eq_true, List.all_eq_true, Bool.not_eq_true'] at h
  obtain ⟨hz, hc⟩ := h
  have hz' : (List.range Config.zoneCount).foldl State.takeZoneDue s = s :=
    foldl_fixed _ _ _ fun n hn => State.takeZoneDue_of_not_due (hz n hn).1 (hz n hn).2
  have hf : s.claims.filter Claim.lapseDue = [] := by
    rw [List.filter_eq_nil_iff]
    intro c hc'
    simpa using hc c hc'
  unfold State.takeDue
  split
  · simp only [hz', hf, List.foldl_nil]
  · rfl

/-- A part that does not run takes no due event. -/
theorem State.takeDue_of_not_running {s : State} (h : s.running = false) : s.takeDue = s := by
  simp [State.takeDue, h]

theorem State.takeDue_of_calm {s : State} (h : s.running = true → s.quiet = true) : s.takeDue = s := by
  cases hr : s.running
  · exact State.takeDue_of_not_running hr
  · exact State.takeDue_of_quiet (h hr)

theorem State.ready_running {s : State} (h : s.ready = true) : s.running = true := by
  simp [State.ready, State.receiving] at h
  exact h.1.1

/-! Requests -/

theorem State.inHand_setHand (s : State) (l : Link) (c : Instr) : (s.setHand l (some (.waiting c))).inHand l = some c := by
  cases l <;> rfl

/-- A request on an idle link is judged and taken into hand. -/
theorem State.present_idle {s : State} {l : Link} {c : Instr} {tag : Byte} (hreq : requestOf c = some (l, tag))
    (hr : s.receiving = true) (hh : (s.link l).free = true) :
    s.present l c = s.setHand l (some (judge l (kindCode c) tag c)) := by
  simp [State.present, hreq, hr, hh]

theorem State.waitsForStore_setHand (s : State) (l : Link) (h : Option Hand) (c : Instr) :
    (s.setHand l h).waitsForStore c = s.waitsForStore c := by
  simp [State.waitsForStore]

/-- A request that needs no grant is served at once: its owner acts with the request in hand, and the reply takes its
place. -/
theorem serve_taken {s : State} {l : Link} {c : Instr} {tag : Byte} {own : Owner}
    (hreq : requestOf c = some (l, tag)) (h : s.takes l c = true) :
    serve l c own s =
      .next ((own (s.holding l c)).1.replies l (kindCode c) tag (own (s.holding l c)).2) := by
  simp only [State.takes, State.admits, Bool.and_eq_true, Bool.not_eq_true'] at h
  obtain ⟨⟨⟨⟨hready, hh⟩, hp⟩, hf⟩, hw⟩ := h
  have hready' := hready
  simp only [State.ready, Bool.and_eq_true] at hready'
  have hj : judge l (kindCode c) tag c = .waiting c := by simp [judge, hp, hf]
  simp only [serve, State.takeDue_of_quiet hready'.2, State.ready_running hready, if_true,
    State.present_idle hreq hready'.1 hh, hj, State.serveInHand, State.inHand_setHand,
    State.waitsForStore_setHand, hw, Bool.false_eq_true, if_false, State.act, hreq, State.holding, State.replies, replyTo]

/-- A request granted the store: its owner acts under the grant, the reply takes its place, the store frees. -/
theorem serve_granted {s : State} {l : Link} {c : Instr} {tag : Byte} {own : Owner}
    (hreq : requestOf c = some (l, tag)) (h : s.grants l c = true) :
    serve l c own s =
      .next ((own (s.granted l c)).1.ends l (kindCode c) tag (own (s.granted l c)).2) := by
  simp only [State.grants, State.admits, Bool.and_eq_true] at h
  obtain ⟨⟨⟨⟨⟨hready, hh⟩, hp⟩, hf⟩, hw⟩, ha⟩ := h
  have hready' := hready
  simp only [State.ready, Bool.and_eq_true] at hready'
  have hj : judge l (kindCode c) tag c = .waiting c := by simp [judge, hp, hf]
  simp only [State.holding] at ha
  simp only [serve, State.takeDue_of_quiet hready'.2, State.ready_running hready, if_true,
    State.present_idle hreq hready'.1 hh, hj, State.serveInHand, State.inHand_setHand,
    State.waitsForStore_setHand, hw, ha, State.actInStore, State.act, hreq, State.granted, State.holding, State.ends,
    State.replies, replyTo]

/-- A request the Frame Engine refuses is answered at once and reaches no owner (R183). -/
theorem serve_refused {s : State} {l : Link} {c : Instr} {tag : Byte} {own : Owner} {body : List Byte}
    (hreq : requestOf c = some (l, tag)) (hready : s.ready = true) (hh : (s.link l).free = true)
    (hj : judge l (kindCode c) tag c = .replying body) :
    serve l c own s = .next (s.setHand l (some (.replying body))) := by
  have hready' := hready
  simp only [State.ready, Bool.and_eq_true] at hready'
  have hi : (s.setHand l (some (Hand.replying body))).inHand l = none := by cases l <;> rfl
  simp [serve, State.takeDue_of_quiet hready'.2, State.ready_running hready,
    State.present_idle hreq hready'.1 hh, hj, State.serveInHand, hi]

/-! What a request in hand and a port grant leave alone -/

@[simp] theorem State.granted_retained (s : State) (l : Link) (c : Instr) : (s.granted l c).retained = s.retained := by
  cases l <;> rfl
@[simp] theorem State.granted_carriers (s : State) (l : Link) (c : Instr) : (s.granted l c).carriers = s.carriers := by
  cases l <;> rfl
@[simp] theorem State.granted_containers (s : State) (l : Link) (c : Instr) :
    (s.granted l c).containers = s.containers := by cases l <;> rfl
@[simp] theorem State.granted_directory (s : State) (l : Link) (c : Instr) :
    (s.granted l c).directory = s.directory := by cases l <;> rfl
@[simp] theorem State.granted_zones (s : State) (l : Link) (c : Instr) : (s.granted l c).zones = s.zones := by
  cases l <;> rfl
@[simp] theorem State.granted_classes (s : State) (l : Link) (c : Instr) : (s.granted l c).classes = s.classes := by
  cases l <;> rfl
@[simp] theorem State.granted_grid (s : State) (l : Link) (c : Instr) : (s.granted l c).grid = s.grid := by
  cases l <;> rfl
@[simp] theorem State.granted_settings (s : State) (l : Link) (c : Instr) : (s.granted l c).settings = s.settings := by
  cases l <;> rfl
@[simp] theorem State.granted_batches (s : State) (l : Link) (c : Instr) : (s.granted l c).batches = s.batches := by
  cases l <;> rfl
@[simp] theorem State.granted_quiesce (s : State) (l : Link) (c : Instr) : (s.granted l c).quiesce = s.quiesce := by
  cases l <;> rfl
@[simp] theorem State.granted_nextBatch (s : State) (l : Link) (c : Instr) :
    (s.granted l c).nextBatch = s.nextBatch := by cases l <;> rfl
@[simp] theorem State.granted_claims (s : State) (l : Link) (c : Instr) : (s.granted l c).claims = s.claims := by
  cases l <;> rfl
@[simp] theorem State.granted_clock (s : State) (l : Link) (c : Instr) : (s.granted l c).clock = s.clock := by
  cases l <;> rfl
@[simp] theorem State.granted_minuteCount (s : State) (l : Link) (c : Instr) :
    (s.granted l c).minuteCount = s.minuteCount := by cases l <;> rfl
@[simp] theorem State.granted_find (s : State) (l : Link) (c : Instr) (label : Label) :
    (s.granted l c).find label = s.find label := by cases l <;> rfl
@[simp] theorem State.granted_labelOf (s : State) (l : Link) (c : Instr) (it : Item) :
    (s.granted l c).labelOf it = s.labelOf it := by cases l <;> rfl
@[simp] theorem State.granted_inTransit (s : State) (l : Link) (c : Instr) (it : Item) :
    (s.granted l c).inTransit it = s.inTransit it := by cases l <;> cases it <;> rfl
@[simp] theorem State.granted_stampOf (s : State) (l : Link) (c : Instr) (it : Item) :
    (s.granted l c).stampOf it = s.stampOf it := by cases l <;> cases it <;> rfl
@[simp] theorem State.granted_claimOf (s : State) (l : Link) (c : Instr) (it : Item) :
    (s.granted l c).claimOf it = s.claimOf it := by cases l <;> rfl
@[simp] theorem State.granted_otherClaim (s : State) (l k : Link) (c : Instr) (it : Item) :
    (s.granted l c).otherClaim k it = s.otherClaim k it := by cases l <;> rfl
@[simp] theorem State.granted_zone (s : State) (l : Link) (c : Instr) (n : Nat) : (s.granted l c).zone n = s.zone n := by
  cases l <;> rfl
@[simp] theorem State.granted_cls (s : State) (l : Link) (c : Instr) (n : Nat) : (s.granted l c).cls n = s.cls n := by
  cases l <;> rfl
@[simp] theorem State.granted_carrier (s : State) (l : Link) (c : Instr) (n : Nat) :
    (s.granted l c).carrier n = s.carrier n := by cases l <;> rfl
@[simp] theorem State.granted_container (s : State) (l : Link) (c : Instr) (n : Nat) :
    (s.granted l c).container n = s.container n := by cases l <;> rfl
@[simp] theorem State.granted_members (s : State) (l : Link) (c : Instr) (n : Nat) :
    (s.granted l c).members n = s.members n := by cases l <;> rfl
@[simp] theorem State.granted_mapLoc (s : State) (l : Link) (c : Instr) (loc : Nat) :
    (s.granted l c).mapLoc loc = s.mapLoc loc := by cases l <;> rfl

/-! The order of checks (R68) -/

theorem State.reloadClaim_otherClaim (s : State) (l : Link) (it : Item) (h : s.otherClaim l it = none) :
    (s.reloadClaim l it).otherClaim l it = none := by
  simp only [State.otherClaim, State.claimOf, State.reloadClaim] at *
  have key : ∀ cs : List Claim,
      (cs.map fun c => if c.item = it ∧ c.link = l then { c with seconds := s.claimLimit l } else c).find?
          (fun c => decide (c.item = it)) =
        (cs.find? fun c => decide (c.item = it)).map
          fun c => if c.item = it ∧ c.link = l then { c with seconds := s.claimLimit l } else c := by
    intro cs
    induction cs with
    | nil => rfl
    | cons c cs ih =>
      simp only [List.map_cons, List.find?_cons]
      have hi : (if c.item = it ∧ c.link = l then { c with seconds := s.claimLimit l } else c).item = c.item := by
        split <;> rfl
      rw [hi]
      split
      · rfl
      · exact ih
  rw [key]
  cases hf : s.claims.find? fun c => decide (c.item = it) with
  | none => rfl
  | some c =>
    rw [hf] at h
    simp only [Option.map_some]
    by_cases hl : c.link = l
    · by_cases hit : c.item = it <;> simp [hl, hit]
    · simp [hl] at h

/-- An item request that passes steps 3 to 7 reaches step 8 with the link's own claim reloaded. -/
theorem State.checkItem_passes {s : State} {l : Link} {i : Instr} {label : Label} {stamp : Nat} {it : Item}
    (h : s.passes l label stamp it) :
    (s.granted l i).checkItem l label stamp = .passed (s.stepEight l i it) it := by
  obtain ⟨hf, ht, hc, hs, hq⟩ := h
  have hst : ((s.granted l i).reloadClaim l it).stampOf it = s.stampOf it := by
    cases l <;> cases it <;> rfl
  have hqq : ((s.granted l i).reloadClaim l it).quiesce = s.quiesce := by cases l <;> rfl
  simp only [State.checkItem, State.granted_find, hf, State.granted_inTransit, ht, Bool.false_eq_true, if_false,
    State.checkClaim, State.granted_otherClaim, hc, State.checkStamp, hst, hqq, hq, State.stepEight]
  rcases hs with hs | hs
  · simp [hs]
  · simp [hs]

end Sys2Proof.Machine
end

