-- ==== Sys2Proof/Laws/Ops.lean ====
section
/-! SUPPORT. What the shared operations can do: sparse tables, the Alert Queue, the Capture Unit, the zone minute. -/

namespace Sys2Proof.Machine

/-! Sparse tables -/

theorem tabGet_put_same {α : Type} (n : Nat) (x : α) : ∀ t : List (Nat × α), tabGet (tabPut t n x) n = some x
  | [] => by simp [tabPut, tabGet]
  | (k, v) :: rest => by
    simp only [tabPut]
    split
    · simp [tabGet]
    · split
      · simp [tabGet]
      · have hk : ¬ k = n := fun h => by subst h; contradiction
        simp only [tabGet, hk, if_false]
        exact tabGet_put_same n x rest

theorem tabGet_put_other {α : Type} (n m : Nat) (x : α) (h : m ≠ n) :
    ∀ t : List (Nat × α), tabGet (tabPut t n x) m = tabGet t m
  | [] => by simp [tabPut, tabGet, Ne.symm h]
  | (k, v) :: rest => by
    simp only [tabPut]
    split
    · simp [tabGet, Ne.symm h]
    · split
      · rename_i hk
        subst hk
        simp [tabGet, Ne.symm h]
      · simp only [tabGet]
        split
        · rfl
        · exact tabGet_put_other n m x h rest

theorem tabGet_mem {α : Type} {n : Nat} {x : α} : ∀ {t : List (Nat × α)}, tabGet t n = some x → (n, x) ∈ t
  | [], h => by simp [tabGet] at h
  | (k, v) :: rest, h => by
    simp only [tabGet] at h
    split at h
    · rename_i hk
      subst hk
      simp only [Option.some.injEq] at h
      simp [h]
    · exact List.mem_cons_of_mem _ (tabGet_mem h)

theorem mem_tabPut {α : Type} {n : Nat} {x : α} {e : Nat × α} :
    ∀ {t : List (Nat × α)}, e ∈ tabPut t n x → e = (n, x) ∨ e ∈ t
  | [], h => by simpa [tabPut] using h
  | (k, v) :: rest, h => by
    simp only [tabPut] at h
    split at h
    · simpa using h
    · split at h
      · rcases List.mem_cons.1 h with h | h
        · exact Or.inl h
        · exact Or.inr (List.mem_cons_of_mem _ h)
      · rcases List.mem_cons.1 h with h | h
        · exact Or.inr (by simp [h])
        · rcases mem_tabPut h with h | h
          · exact Or.inl h
          · exact Or.inr (List.mem_cons_of_mem _ h)

theorem mem_tabDel {α : Type} {n : Nat} {e : Nat × α} : ∀ {t : List (Nat × α)}, e ∈ tabDel t n → e ∈ t
  | [], h => by simp [tabDel] at h
  | (k, v) :: rest, h => by
    simp only [tabDel] at h
    split at h
    · exact List.mem_cons_of_mem _ h
    · rcases List.mem_cons.1 h with h | h
      · simp [h]
      · exact List.mem_cons_of_mem _ (mem_tabDel h)

/-- A write keeps the canonical form, and so does a deletion. -/
theorem tabWf_iff {α : Type} : ∀ t : List (Nat × α), tabWf t = true ↔ (t.map (·.1)).Pairwise (· < ·)
  | [] => by simp [tabWf]
  | [_] => by simp [tabWf]
  | (a, x) :: (b, y) :: rest => by
    have ih := tabWf_iff ((b, y) :: rest)
    simp only [tabWf, Bool.and_eq_true, decide_eq_true_eq, ih, List.map_cons, List.pairwise_cons, List.mem_cons]
    constructor
    · rintro ⟨hab, h1, h2⟩
      refine ⟨?_, h1, h2⟩
      rintro c (rfl | hc)
      · exact hab
      · exact Nat.lt_trans hab (h1 c hc)
    · rintro ⟨h0, h1, h2⟩
      exact ⟨h0 b (Or.inl rfl), h1, h2⟩

theorem mem_keys_tabPut {α : Type} {n m : Nat} {x : α} {t : List (Nat × α)}
    (h : m ∈ (tabPut t n x).map (·.1)) : m = n ∨ m ∈ t.map (·.1) := by
  obtain ⟨e, he, rfl⟩ := List.mem_map.1 h
  rcases mem_tabPut he with rfl | he
  · exact Or.inl rfl
  · exact Or.inr (List.mem_map.2 ⟨e, he, rfl⟩)

theorem tabWf_put {α : Type} (n : Nat) (x : α) : ∀ t : List (Nat × α), tabWf t = true → tabWf (tabPut t n x) = true
  | [], _ => rfl
  | (k, v) :: rest, h => by
    have h' := (tabWf_iff _).1 h
    simp only [List.map_cons, List.pairwise_cons] at h'
    rw [tabWf_iff]
    simp only [tabPut]
    split
    · rename_i hnk
      simp only [List.map_cons, List.pairwise_cons, List.mem_cons]
      refine ⟨?_, h'.1, h'.2⟩
      rintro c (rfl | hc)
      · exact hnk
      · exact Nat.lt_trans hnk (h'.1 c hc)
    · split
      · rename_i hnk
        subst hnk
        simp only [List.map_cons, List.pairwise_cons]
        exact h'
      · have ih := (tabWf_iff _).1 (tabWf_put n x rest ((tabWf_iff _).2 h'.2))
        simp only [List.map_cons, List.pairwise_cons]
        refine ⟨?_, ih⟩
        intro c hc
        rcases mem_keys_tabPut hc with rfl | hc
        · omega
        · exact h'.1 c hc

theorem tabWf_del {α : Type} (n : Nat) : ∀ t : List (Nat × α), tabWf t = true → tabWf (tabDel t n) = true
  | [], _ => rfl
  | (k, v) :: rest, h => by
    have h' := (tabWf_iff _).1 h
    simp only [List.map_cons, List.pairwise_cons] at h'
    simp only [tabDel]
    split
    · exact (tabWf_iff _).2 h'.2
    · rw [tabWf_iff]
      simp only [List.map_cons, List.pairwise_cons]
      refine ⟨?_, (tabWf_iff _).1 (tabWf_del n rest ((tabWf_iff _).2 h'.2))⟩
      intro c hc
      obtain ⟨e, he, rfl⟩ := List.mem_map.1 hc
      exact h'.1 _ (List.mem_map.2 ⟨e, mem_tabDel he, rfl⟩)

@[simp] theorem State.carrier_setCarrier (s : State) (n : Nat) (c : Carrier) : (s.setCarrier n c).carrier n = some c :=
  tabGet_put_same n c _

theorem State.carrier_setCarrier_other (s : State) (n m : Nat) (c : Carrier) (h : m ≠ n) :
    (s.setCarrier n c).carrier m = s.carrier m := tabGet_put_other n m c h _

@[simp] theorem State.container_setContainer (s : State) (n : Nat) (c : Container) :
    (s.setContainer n c).container n = some c := tabGet_put_same n c _

theorem State.container_setContainer_other (s : State) (n m : Nat) (c : Container) (h : m ≠ n) :
    (s.setContainer n c).container m = s.container m := tabGet_put_other n m c h _

/-! Zones -/

theorem State.zone_setZone (s : State) (n : Nat) (z : Zone) (h : n < s.zones.length) : (s.setZone n z).zone n = z := by
  simp [State.zone, State.setZone, List.getD_eq_getElem?_getD, h]

theorem State.zone_setZone_other (s : State) (n m : Nat) (z : Zone) (h : m ≠ n) : (s.setZone n z).zone m = s.zone m := by
  simp [State.zone, State.setZone, List.getD_eq_getElem?_getD, List.getElem?_set_ne (Ne.symm h)]

theorem State.zone_beyond (s : State) (n : Nat) (h : s.zones.length ≤ n) : s.zone n = Zone.cold := by
  simp [State.zone, List.getD_eq_getElem?_getD, List.getElem?_eq_none h]

/-- A zone after a change of zone `n`: the change, or itself. -/
theorem State.zone_modZone (s : State) (n m : Nat) (f : Zone → Zone) :
    (s.modZone n f).zone m = if m = n ∧ n < s.zones.length then f (s.zone n) else s.zone m := by
  by_cases hm : m = n
  · subst hm
    by_cases hn : m < s.zones.length
    · simp only [hn, and_self, if_true]
      exact s.zone_setZone m _ hn
    · simp only [hn, and_false, if_false]
      rw [s.zone_beyond m (by omega)]
      exact State.zone_beyond _ m (by simp [State.modZone, State.setZone]; omega)
  · simp only [hm, false_and, if_false]
    exact s.zone_setZone_other n m _ hm

@[simp] theorem State.zones_length_modZone (s : State) (n : Nat) (f : Zone → Zone) :
    (s.modZone n f).zones.length = s.zones.length := by simp [State.modZone, State.setZone]

@[simp] theorem State.zones_length_setZone (s : State) (n : Nat) (z : Zone) :
    (s.setZone n z).zones.length = s.zones.length := by simp [State.setZone]

@[simp] theorem State.zones_length_modZoneOpt (s : State) (n : Option Nat) (f : Zone → Zone) :
    (s.modZoneOpt n f).zones.length = s.zones.length := by cases n <;> simp [State.modZoneOpt]

/-- The minute event of a zone, field by field (R35, R109, R115). -/
theorem Zone.minute_eq (z : Zone) :
    z.minute =
      if z.cfg.active then
        { z with
          e := z.e + z.eRate
          p := z.p + z.pRate
          countdown := if z.stale then 0 else z.countdown - 1
          openMinutes := if z.doorOpen then min (z.openMinutes + 1) 255 else z.openMinutes }
      else z := by
  rcases z with ⟨cfg, _, _, stale, doorOpen, _, _, _, _, _, _, _, _, _, _, _, _, _, _⟩
  simp only [Zone.minute, Zone.advance, Zone.runCountdown, Zone.runOpenMinutes]
  cases stale <;> cases doorOpen <;> rfl

/-! The Alert Queue -/

/-- A raising changes the queue and the overflow flag only. -/
theorem State.raise_eta (s : State) (k : AlertKind) (subj : Subject) (v : Option AlertValue) :
    s.raise k subj v =
      { s with alerts := (s.raise k subj v).alerts, overflow := (s.raise k subj v).overflow } := by
  simp only [State.raise]
  split <;> (try split) <;> (try split) <;> rfl

/-- Rank is never above 3, so the rank the room test finds is present when it is below a raising's. -/
theorem lowestRank_present (as : List Alert) (r : Nat) (hr : r ≤ 3) (h : lowestRank as < r) :
    ∃ a ∈ as, a.kind.rank = lowestRank as := by
  have key : ∀ (as : List Alert) (m : Nat), as.foldl (fun m a => min m a.kind.rank) m = m ∨
      ∃ a ∈ as, a.kind.rank = as.foldl (fun m a => min m a.kind.rank) m := by
    intro as
    induction as with
    | nil => intro m; exact Or.inl rfl
    | cons a as ih =>
      intro m
      simp only [List.foldl_cons]
      rcases ih (min m a.kind.rank) with h | ⟨b, hb, he⟩
      · rw [h]
        rcases Nat.le_total m a.kind.rank with hle | hle
        · exact Or.inl (Nat.min_eq_left hle)
        · exact Or.inr ⟨a, by simp, (Nat.min_eq_right hle).symm⟩
      · exact Or.inr ⟨b, by simp [hb], he⟩
  rcases key as 3 with h3 | h3
  · simp only [lowestRank] at h
    omega
  · exact h3

theorem AlertKind.rank_le (k : AlertKind) : k.rank ≤ 3 := by cases k <;> decide

/-- The queue stays within its limit (R168, R172). -/
theorem State.raise_alerts_length (s : State) (k : AlertKind) (subj : Subject) (v : Option AlertValue)
    (h : s.alerts.length ≤ Config.alertLimit) : (s.raise k subj v).alerts.length ≤ Config.alertLimit := by
  have hk : ((s.alerts.map fun a => if a.isFor k subj then a.coalesce subj s.clock v else a).filter
      fun a => !a.supersededBy k subj).length ≤ s.alerts.length := by
    refine Nat.le_trans (List.length_filter_le _ _) ?_
    simp
  simp only [State.raise]
  split
  · exact Nat.le_trans hk h
  · split
    · simp only [List.length_append, List.length_singleton]
      omega
    · split
      · rename_i hlow
        obtain ⟨a, ha, hr⟩ := lowestRank_present _ _ (AlertKind.rank_le k) hlow
        have := List.length_eraseP_of_mem (p := fun b : Alert => decide (b.kind.rank = lowestRank
          ((s.alerts.map fun a => if a.isFor k subj then a.coalesce subj s.clock v else a).filter
            fun a => !a.supersededBy k subj))) ha (by simpa using hr)
        have hpos := List.length_pos_of_mem ha
        simp only [List.length_append, List.length_singleton, this]
        omega
      · exact Nat.le_trans hk h

/-! The Capture Unit -/

/-- A fault changes the record, the more-faults flag and the Alert Queue only (R158). -/
theorem State.raiseFault_eta (s : State) (kind : CaptureKind) (source : CaptureSource) (label : Option Label)
    (loc zone : Option Nat) :
    ∃ cap more as o, s.raiseFault kind source label loc zone =
      { s with capture := cap, moreFaults := more, alerts := as, overflow := o } := by
  unfold State.raiseFault
  split
  · exact ⟨_, _, _, _, rfl⟩
  · unfold State.fillCapture
    rw [State.raise_eta]
    exact ⟨_, _, _, _, rfl⟩

/-- A match changes the record, the watch's arming and the Alert Queue only (R165). -/
theorem State.takeMatch_eta (s : State) (src : CaptureSource) (label : Label) (loc zone : Nat) (b : Bool) :
    ∃ cap w as o, s.takeMatch src label loc zone b =
      { s with capture := cap, watch := w, alerts := as, overflow := o } := by
  unfold State.takeMatch State.fillCapture
  rw [State.raise_eta]
  exact ⟨_, _, _, _, rfl⟩

end Sys2Proof.Machine
end

