-- ==== Sys2Proof/Laws/Settle.lean ====
section
/-! SUPPORT. What a settle, a residence change and the small updates around them touch, and what they leave. -/

namespace Sys2Proof.Machine

/-! Alerts of one operation -/

/-- Raising a list of alerts changes the queue and the overflow flag only. -/
theorem State.raiseAll_eta (s : State) (ks : List AlertKind) (subj : Subject) :
    s.raiseAll ks subj =
      { s with alerts := (s.raiseAll ks subj).alerts, overflow := (s.raiseAll ks subj).overflow } := by
  induction ks generalizing s with
  | nil => rfl
  | cons k ks ih =>
    have h : s.raiseAll (k :: ks) subj = (s.raise k subj none).raiseAll ks subj := rfl
    rw [h, ih, s.raise_eta k subj none]

/-- BAKE_REFUSED changes the queue and the overflow flag only. -/
theorem State.bakeRefusal_eta (s : State) (slot : Nat) (b : Bool) :
    s.bakeRefusal slot b =
      { s with alerts := (s.bakeRefusal slot b).alerts, overflow := (s.bakeRefusal slot b).overflow } := by
  unfold State.bakeRefusal
  split
  · rfl
  · split
    · exact s.raise_eta _ _ _
    · rfl

/-! Records -/

/-- A change of one carrier touches the carriers only. -/
theorem State.modCarrier_eta (s : State) (n : Nat) (f : Carrier → Carrier) :
    s.modCarrier n f = { s with carriers := (s.modCarrier n f).carriers } := by
  unfold State.modCarrier
  split <;> rfl

/-- A change of one container touches the containers only. -/
theorem State.modContainer_eta (s : State) (n : Nat) (f : Container → Container) :
    s.modContainer n f = { s with containers := (s.modContainer n f).containers } := by
  unfold State.modContainer
  split <;> rfl

theorem State.carrier_modCarrier (s : State) (n m : Nat) (f : Carrier → Carrier) :
    (s.modCarrier n f).carrier m = if m = n then (s.carrier n).map f else s.carrier m := by
  unfold State.modCarrier
  by_cases hm : m = n
  · subst hm
    cases h : s.carrier m with
    | none => simp [h]
    | some c => simp [State.carrier, State.setCarrier, tabGet_put_same]
  · cases h : s.carrier n with
    | none => simp [hm]
    | some c => simp [hm, State.carrier, State.setCarrier, tabGet_put_other n m _ hm]

theorem State.container_modContainer (s : State) (n m : Nat) (f : Container → Container) :
    (s.modContainer n f).container m = if m = n then (s.container n).map f else s.container m := by
  unfold State.modContainer
  by_cases hm : m = n
  · subst hm
    cases h : s.container m with
    | none => simp [h]
    | some c => simp [State.container, State.setContainer, tabGet_put_same]
  · cases h : s.container n with
    | none => simp [hm]
    | some c => simp [hm, State.container, State.setContainer, tabGet_put_other n m _ hm]

theorem State.bumpCarrierIf_eta (s : State) (n : Nat) (b : Bool) :
    s.bumpCarrierIf n b = { s with carriers := (s.bumpCarrierIf n b).carriers } := by
  unfold State.bumpCarrierIf
  split
  · exact s.modCarrier_eta _ _
  · rfl

theorem State.carrier_bumpCarrierIf (s : State) (n m : Nat) (b : Bool) :
    (s.bumpCarrierIf n b).carrier m =
      if m = n then (s.carrier n).map fun c => { c with stamp := if b then nextStamp c.stamp else c.stamp }
      else s.carrier m := by
  unfold State.bumpCarrierIf
  cases b
  · by_cases hm : m = n
    · subst hm
      cases h : s.carrier m <;> simp [h]
    · simp [hm]
  · simp only [if_true, State.bumpCarrier]
    rw [State.carrier_modCarrier]

theorem State.carrier_bumpCarrier (s : State) (n m : Nat) :
    (s.bumpCarrier n).carrier m =
      if m = n then (s.carrier n).map fun c => { c with stamp := nextStamp c.stamp } else s.carrier m :=
  s.carrier_modCarrier n m _

/-- A change of a zone that may be absent touches the zones only. -/
theorem State.modZoneOpt_eta (s : State) (n : Option Nat) (f : Zone → Zone) :
    s.modZoneOpt n f = { s with zones := (s.modZoneOpt n f).zones } := by
  cases n <;> rfl

/-- A zone after a change of a zone that may be absent. -/
theorem State.zone_modZoneOpt (s : State) (n : Option Nat) (m : Nat) (f : Zone → Zone) :
    (s.modZoneOpt n f).zone m = if n = some m ∧ m < s.zones.length then f (s.zone m) else s.zone m := by
  cases n with
  | none => simp [State.modZoneOpt]
  | some n =>
    simp only [State.modZoneOpt, State.zone_modZone, Option.some.injEq]
    by_cases h : m = n
    · subst h; simp
    · simp [h, Ne.symm h]

/-! Settle -/

/-- A settle touches the carriers, the zones, the Alert Queue and its flag only (R8). -/
theorem State.settle_eta (s : State) (slot : Nat) :
    (s.settle slot).1 =
      { s with
        carriers := (s.settle slot).1.carriers
        zones := (s.settle slot).1.zones
        alerts := (s.settle slot).1.alerts
        overflow := (s.settle slot).1.overflow } := by
  unfold State.settle
  split
  · rfl
  · rename_i c _
    dsimp only
    rw [State.raiseAll_eta]
    cases c.zone <;> rfl

/-- The settled record. -/
theorem State.carrier_settle (s : State) (slot m : Nat) :
    (s.settle slot).1.carrier m = if m = slot then (s.carrier slot).map fun c => (s.settled c).1 else s.carrier m := by
  cases h : s.carrier slot with
  | none =>
    have hs : s.settle slot = (s, false) := by simp [State.settle, h]
    rw [hs]
    by_cases hm : m = slot
    · subst hm; simp [h]
    · simp [hm]
  | some c =>
    have hs : (s.settle slot).1.carriers = tabPut s.carriers slot (s.settled c).1 := by
      unfold State.settle
      rw [h]
      dsimp only
      rw [State.raiseAll_eta]
      cases c.zone <;> rfl
    unfold State.carrier
    rw [hs]
    by_cases hm : m = slot
    · subst hm; simp [tabGet_put_same]
    · simp [hm, tabGet_put_other slot m _ hm]

/-- A settle reports a change of life status or bake count. -/
theorem State.settle_changed (s : State) (slot : Nat) (c : Carrier) (h : s.carrier slot = some c) :
    (s.settle slot).2 =
      (decide (c.life ≠ (s.settled c).1.life) || decide (c.bakeCount ≠ (s.settled c).1.bakeCount)) := by
  simp [State.settle, h]

/-- The zones after a settle: the carrier's own zone has its keys filed anew and its status counts moved. -/
theorem State.zone_settle (s : State) (slot m : Nat) (c : Carrier) (h : s.carrier slot = some c) :
    (s.settle slot).1.zone m =
      if c.zone = some m ∧ m < s.zones.length then
        (((s.zone m).withdraw slot).file slot (s.settled c).1.eKey (s.settled c).1.pKey).moveLife c.life
          (s.settled c).1.life
      else s.zone m := by
  have hs : (s.settle slot).1.zones = (s.modZoneOpt c.zone fun z =>
      ((z.withdraw slot).file slot (s.settled c).1.eKey (s.settled c).1.pKey).moveLife c.life
        (s.settled c).1.life).zones := by
    unfold State.settle
    rw [h]
    dsimp only
    rw [State.raiseAll_eta]
    cases c.zone <;> rfl
  have hz := s.zone_modZoneOpt c.zone m fun z =>
      ((z.withdraw slot).file slot (s.settled c).1.eKey (s.settled c).1.pKey).moveLife c.life (s.settled c).1.life
  unfold State.zone at hz ⊢
  rw [hs, hz]

theorem State.settle_free (s : State) (slot : Nat) (h : s.carrier slot = none) : s.settle slot = (s, false) := by
  simp [State.settle, h]

/-- Lists and counts of a zone changed, and nothing else of it. -/
def Zone.sameAir (z z' : Zone) : Prop :=
  z' =
    { z with
      eList := z'.eList
      pList := z'.pList
      residents := z'.residents
      counts := z'.counts
      containers := z'.containers
      evacuating := z'.evacuating }

theorem Zone.sameAir_refl (z : Zone) : z.sameAir z := rfl

theorem Zone.sameAir_trans {a b c : Zone} (h1 : a.sameAir b) (h2 : b.sameAir c) : a.sameAir c := by
  unfold Zone.sameAir at *
  rw [h2, h1]

theorem Zone.sameAir_withdraw (z : Zone) (slot : Nat) : z.sameAir (z.withdraw slot) := rfl

theorem Zone.sameAir_file (z : Zone) (slot : Nat) (e p : Option Nat) : z.sameAir (z.file slot e p) := rfl

theorem Zone.sameAir_moveLife (z : Zone) (a b : Life) : z.sameAir (z.moveLife a b) := by
  unfold Zone.moveLife
  split <;> rfl

theorem Zone.sameAir_addResident (z : Zone) (a : Life) : z.sameAir (z.addResident a) := rfl

theorem Zone.sameAir_dropResident (z : Zone) (a : Life) : z.sameAir (z.dropResident a) := rfl

theorem State.airKept_iff (s t : State) : s.airKept t ↔ ∀ n, (s.zone n).sameAir (t.zone n) := Iff.rfl

theorem State.airKept_refl (s : State) : s.airKept s := fun _ => rfl

theorem State.airKept_trans {s t u : State} (h1 : s.airKept t) (h2 : t.airKept u) : s.airKept u := fun n =>
  Zone.sameAir_trans (h1 n) (h2 n)

theorem State.airKept_modZoneOpt (s : State) (n : Option Nat) (f : Zone → Zone) (hf : ∀ z : Zone, z.sameAir (f z)) :
    s.airKept (s.modZoneOpt n f) := by
  intro m
  rw [State.zone_modZoneOpt]
  split
  · exact hf _
  · rfl

/-- A settle keeps the air of every zone. -/
theorem State.airKept_settle (s : State) (slot : Nat) : s.airKept (s.settle slot).1 := by
  cases h : s.carrier slot with
  | none => rw [s.settle_free slot h]; exact s.airKept_refl
  | some c =>
    intro m
    rw [s.zone_settle slot m c h]
    split
    · exact Zone.sameAir_trans (Zone.sameAir_trans ((s.zone m).sameAir_withdraw slot) (Zone.sameAir_file _ _ _ _))
        (Zone.sameAir_moveLife _ _ _)
    · rfl

theorem State.airKept_integrals {s t : State} (h : s.airKept t) (z : Option Nat) : t.integrals z = s.integrals z := by
  cases z with
  | none => rfl
  | some n =>
    have hn := h n
    simp only [State.integrals]
    rw [hn]

theorem State.airKept_modeIn {s t : State} (h : s.airKept t) (z : Option Nat) (b : Bool) :
    t.modeIn z b = s.modeIn z b := by
  cases z with
  | none => rfl
  | some n =>
    have hn := h n
    simp only [State.modeIn]
    rw [hn]

theorem State.settle_zones_length (s : State) (slot : Nat) : (s.settle slot).1.zones.length = s.zones.length := by
  cases h : s.carrier slot with
  | none => rw [s.settle_free slot h]
  | some c =>
    unfold State.settle
    rw [h]
    dsimp only
    rw [State.raiseAll_eta]
    cases c.zone <;> simp [State.modZoneOpt, State.modZone, State.setZone, State.setCarrier]

/-! The settled record -/

theorem bakeReady_iff (v : ClassValues) (c : Carrier) :
    bakeReady v c = true ↔
      c.mode = .bake ∧ c.life ≠ .spent ∧ c.bakeCount < v.bakeBudget ∧ v.bakeRequirement ≤ c.progress := by
  simp only [bakeReady, Bool.and_eq_true, decide_eq_true_eq, and_assoc]

/-- A bake is ready on the charged record when its mode, status and count say so and the new progress is enough (R11). -/
theorem bakeReady_charge (v : ClassValues) (e p : Nat) (c : Carrier) :
    bakeReady v (charge e p c) = true ↔
      c.mode = .bake ∧ c.life ≠ .spent ∧ c.bakeCount < v.bakeBudget ∧
        v.bakeRequirement ≤ newProgress c (p - c.aP) :=
  bakeReady_iff v (charge e p c)

/-- A settle with no bake completion. -/
theorem settleRecord_unbaked {v : ClassValues} {e p : Nat} {clock : Option Word} {minute : Word} {c : Carrier}
    (h : bakeReady v (charge e p c) = false) :
    let t := (settleRecord v e p clock minute c).1
    t.base = newExposure c (e - c.aE) (p - c.aP) ∧ t.progress = newProgress c (p - c.aP) ∧ t.carried = c.carried ∧
      t.closed = c.closed ∧ t.bakeCount = c.bakeCount ∧
      t.openSeg =
        { c.openSeg with
          credits := c.openSeg.credits + ((newExposure c (e - c.aE) (p - c.aP) : Int) - (c.base : Int)) } ∧
      t.life = evaluate v c.bakeCount (newExposure c (e - c.aE) (p - c.aP)) c.life := by
  simp only [settleRecord, h, Bool.false_eq_true, if_false]
  exact ⟨rfl, rfl, rfl, rfl, rfl, rfl, rfl⟩

/-- A settle with a bake completion. -/
theorem settleRecord_baked {v : ClassValues} {e p : Nat} {clock : Option Word} {minute : Word} {c : Carrier}
    (h : bakeReady v (charge e p c) = true) :
    let t := (settleRecord v e p clock minute c).1
    t.base = 0 ∧ t.progress = 0 ∧ t.carried = 0 ∧ t.closed = [] ∧ t.bakeCount = c.bakeCount + 1 ∧
      t.openSeg = { c.openSeg with stamp := clock, entry := minute, credits := 0 } ∧
      t.life = evaluate v (c.bakeCount + 1) 0 .fresh := by
  simp only [settleRecord, h, if_true]
  exact ⟨rfl, rfl, rfl, rfl, rfl, rfl, rfl⟩

/-! What no settle changes -/

theorem settleRecord_kept (v : ClassValues) (e p : Nat) (clock : Option Word) (minute : Word) (c : Carrier) :
    let t := (settleRecord v e p clock minute c).1
    t.cls = c.cls ∧ t.packed = c.packed ∧ t.parent = c.parent ∧ t.zone = c.zone ∧ t.mode = c.mode ∧ t.aE = e ∧
      t.aP = p ∧ t.hold = c.hold ∧ t.stamp = c.stamp ∧ t.inTransit = c.inTransit ∧ t.enrolStamp = c.enrolStamp := by
  simp only [settleRecord]
  split <;> simp [charge, completeBake]

theorem State.settled_kept (s : State) (c : Carrier) :
    (s.settled c).1.cls = c.cls ∧ (s.settled c).1.packed = c.packed ∧ (s.settled c).1.parent = c.parent ∧
      (s.settled c).1.zone = c.zone ∧ (s.settled c).1.mode = c.mode ∧ (s.settled c).1.aE = (s.integrals c.zone).1 ∧
      (s.settled c).1.aP = (s.integrals c.zone).2 ∧ (s.settled c).1.hold = c.hold ∧ (s.settled c).1.stamp = c.stamp ∧
      (s.settled c).1.inTransit = c.inTransit ∧ (s.settled c).1.enrolStamp = c.enrolStamp :=
  settleRecord_kept _ _ _ _ _ _

/-! Residence change (R4) -/

/-- The move between the two settles touches the carriers and the zones only. -/
theorem State.relocate_eta (s : State) (slot : Nat) (r : Residence) (c : Carrier) :
    s.relocate slot r c =
      { s with carriers := (s.relocate slot r c).carriers, zones := (s.relocate slot r c).zones } := by
  unfold State.relocate
  dsimp only
  split
  · cases c.zone <;> rfl
  · cases c.zone <;> cases r.zone <;> rfl

theorem State.carrier_relocate (s : State) (slot m : Nat) (r : Residence) (c : Carrier) :
    (s.relocate slot r c).carrier m =
      if m = slot then
        some (moveRecord r (s.integrals r.zone).1 (s.integrals r.zone).2 s.clock s.minuteCount c)
      else s.carrier m := by
  have hs : (s.relocate slot r c).carriers = tabPut s.carriers slot
      (moveRecord r (s.integrals r.zone).1 (s.integrals r.zone).2 s.clock s.minuteCount c) := by
    unfold State.relocate
    dsimp only
    split
    · cases c.zone <;> simp [State.setCarrier]
    · cases c.zone <;> cases r.zone <;> simp [State.setCarrier]
  unfold State.carrier
  rw [hs]
  by_cases hm : m = slot
  · subst hm; simp [tabGet_put_same]
  · simp [hm, tabGet_put_other slot m _ hm]

theorem State.airKept_relocate (s : State) (slot : Nat) (r : Residence) (c : Carrier) :
    s.airKept (s.relocate slot r c) := by
  have h1 : s.airKept (s.modZoneOpt c.zone (Zone.withdraw slot)) :=
    s.airKept_modZoneOpt _ _ fun z => Zone.sameAir_withdraw z slot
  unfold State.relocate
  dsimp only
  split
  · exact h1
  · refine State.airKept_trans ?_ (State.airKept_modZoneOpt _ _ _ fun z => Zone.sameAir_addResident z _)
    refine State.airKept_trans ?_ (State.airKept_modZoneOpt _ _ _ fun z => Zone.sameAir_dropResident z _)
    exact h1

/-- A residence change that R4 makes, in three parts. -/
theorem State.changeResidence_moves (s : State) (slot : Nat) (r : Residence) (c : Carrier)
    (h : s.carrier slot = some c) (hm : c.moves r = true) :
    s.changeResidence slot r =
      ((((s.settle slot).1.relocate slot r (s.settled c).1).settle slot).1,
        (s.settle slot).2 || (((s.settle slot).1.relocate slot r (s.settled c).1).settle slot).2) := by
  have hc : (s.settle slot).1.carrier slot = some (s.settled c).1 := by simp [State.carrier_settle, h]
  simp [State.changeResidence, h, hm, hc]

/-- One that R4 does not make stores parent and packed flag. -/
theorem State.changeResidence_stays (s : State) (slot : Nat) (r : Residence) (c : Carrier)
    (h : s.carrier slot = some c) (hm : c.moves r = false) :
    s.changeResidence slot r = (s.setCarrier slot { c with parent := r.parent, packed := r.packed }, false) := by
  simp [State.changeResidence, h, hm]

/-- A residence change touches the carriers, the zones, the Alert Queue and its flag only. -/
theorem State.changeResidence_eta (s : State) (slot : Nat) (r : Residence) :
    (s.changeResidence slot r).1 =
      { s with
        carriers := (s.changeResidence slot r).1.carriers
        zones := (s.changeResidence slot r).1.zones
        alerts := (s.changeResidence slot r).1.alerts
        overflow := (s.changeResidence slot r).1.overflow } := by
  cases h : s.carrier slot with
  | none => simp [State.changeResidence, h]
  | some c =>
    cases hm : c.moves r
    · rw [s.changeResidence_stays slot r c h hm]; rfl
    · rw [s.changeResidence_moves slot r c h hm]
      dsimp only
      rw [State.settle_eta, State.relocate_eta, s.settle_eta slot]

theorem State.airKept_changeResidence (s : State) (slot : Nat) (r : Residence) :
    s.airKept (s.changeResidence slot r).1 := by
  cases h : s.carrier slot with
  | none => simp only [State.changeResidence, h]; exact s.airKept_refl
  | some c =>
    cases hm : c.moves r
    · rw [s.changeResidence_stays slot r c h hm]; exact s.airKept_refl
    · rw [s.changeResidence_moves slot r c h hm]
      exact State.airKept_trans (State.airKept_trans (s.airKept_settle slot) (State.airKept_relocate _ _ _ _))
        (State.airKept_settle _ _)

/-- Two states that agree on the classes, the air of a record's zone and the time settle it alike. -/
theorem State.settled_congr {s t : State} (c : Carrier) (h1 : t.classes = s.classes)
    (h2 : t.integrals c.zone = s.integrals c.zone) (h3 : t.clock = s.clock) (h4 : t.minuteCount = s.minuteCount) :
    t.settled c = s.settled c := by
  simp only [State.settled, State.classValues, State.cls, h1, h2, h3, h4]

/-- The carriers after a residence change that R4 makes. -/
theorem State.carrier_changeResidence (s : State) (slot m : Nat) (r : Residence) (c : Carrier)
    (h : s.carrier slot = some c) (hm : c.moves r = true) :
    (s.changeResidence slot r).1.carrier m =
      if m = slot then
        some
          (s.settled
            (moveRecord r (s.integrals r.zone).1 (s.integrals r.zone).2 s.clock s.minuteCount (s.settled c).1)).1
      else s.carrier m := by
  have hc : (s.settle slot).1.carrier slot = some (s.settled c).1 := by simp [State.carrier_settle, h]
  have hi := State.airKept_integrals (s.airKept_settle slot) r.zone
  have hk : (s.settle slot).1.clock = s.clock := by rw [State.settle_eta]
  have hn : (s.settle slot).1.minuteCount = s.minuteCount := by rw [State.settle_eta]
  rw [s.changeResidence_moves slot r c h hm]
  dsimp only
  rw [State.carrier_settle]
  simp only [State.carrier_relocate, if_true, Option.map_some, hi, hk, hn]
  split
  · congr 2
    apply State.settled_congr
    · rw [State.relocate_eta, State.settle_eta]
    · exact State.airKept_integrals
        (State.airKept_trans (s.airKept_settle slot) (State.airKept_relocate _ slot r (s.settled c).1)) _
    · rw [State.relocate_eta, State.settle_eta]
    · rw [State.relocate_eta, State.settle_eta]
  · rename_i hne
    simp [State.carrier_settle, hne]

/-! Residents across a residence change (R45) -/

theorem State.residents_settle (s : State) (slot m : Nat) :
    ((s.settle slot).1.zone m).residents = (s.zone m).residents := by
  cases h : s.carrier slot with
  | none => rw [s.settle_free slot h]
  | some c =>
    rw [s.zone_settle slot m c h]
    split
    · unfold Zone.moveLife
      split <;> rfl
    · rfl

theorem State.zone_settle_other (s : State) (slot m : Nat) (c : Carrier) (h : s.carrier slot = some c)
    (hm : c.zone ≠ some m) : (s.settle slot).1.zone m = s.zone m := by
  rw [s.zone_settle slot m c h]
  simp [hm]

/-- The residents of a zone across the move between two settles (R45). -/
theorem State.zone_relocate_other (s : State) (slot m : Nat) (r : Residence) (c : Carrier) (h1 : c.zone ≠ some m)
    (h2 : r.zone ≠ some m) : (s.relocate slot r c).zone m = s.zone m := by
  unfold State.relocate
  dsimp only
  split
  · show ((s.modZoneOpt c.zone _).setCarrier slot _).zone m = _
    have : ((s.modZoneOpt c.zone (Zone.withdraw slot))).zone m = s.zone m := by
      rw [State.zone_modZoneOpt]; simp [h1]
    exact this
  · rw [State.zone_modZoneOpt, State.zone_modZoneOpt]
    simp only [h1, h2, false_and, if_false]
    have : ((s.modZoneOpt c.zone (Zone.withdraw slot))).zone m = s.zone m := by
      rw [State.zone_modZoneOpt]; simp [h1]
    exact this

theorem State.residents_relocate (s : State) (slot m : Nat) (r : Residence) (c : Carrier) (hm : m < s.zones.length) :
    ((s.relocate slot r c).zone m).residents =
      if c.zone = r.zone then (s.zone m).residents
      else if c.zone = some m then (s.zone m).residents - 1
      else if r.zone = some m then (s.zone m).residents + 1
      else (s.zone m).residents := by
  have hz : ∀ x : Carrier, (((s.modZoneOpt c.zone (Zone.withdraw slot)).setCarrier slot x).zone m) =
      if c.zone = some m then (s.zone m).withdraw slot else s.zone m := by
    intro x
    have := s.zone_modZoneOpt c.zone m (Zone.withdraw slot)
    simp only [hm, and_true] at this
    exact this
  have hl : ∀ x : Carrier, ((s.modZoneOpt c.zone (Zone.withdraw slot)).setCarrier slot x).zones.length =
      s.zones.length := fun x => by simp [State.setCarrier]
  unfold State.relocate
  dsimp only
  split
  · rw [hz]
    split <;> rfl
  · rename_i hne
    rw [State.zone_modZoneOpt, State.zone_modZoneOpt, hz]
    simp only [State.zones_length_modZoneOpt, hl, hm, and_true]
    by_cases h1 : c.zone = some m
    · have h2 : r.zone ≠ some m := fun h => hne (h1.trans h.symm)
      simp only [h1, h2, if_true, if_false]
      rfl
    · by_cases h2 : r.zone = some m
      · simp only [h1, h2, if_true, if_false]
        rfl
      · simp only [h1, h2, if_false]

/-- The residents of a zone after a residence change that R4 makes. -/
theorem State.residents_changeResidence (s : State) (slot m : Nat) (r : Residence) (c : Carrier)
    (h : s.carrier slot = some c) (hmv : c.moves r = true) (hm : m < s.zones.length) :
    ((s.changeResidence slot r).1.zone m).residents =
      if c.zone = r.zone then (s.zone m).residents
      else if c.zone = some m then (s.zone m).residents - 1
      else if r.zone = some m then (s.zone m).residents + 1
      else (s.zone m).residents := by
  rw [s.changeResidence_moves slot r c h hmv]
  dsimp only
  rw [State.residents_settle, State.residents_relocate _ _ _ _ _ (by rw [State.settle_zones_length]; exact hm),
    State.residents_settle, (s.settled_kept c).2.2.2.1]

/-- A zone the carrier neither leaves nor enters. -/
theorem State.zone_changeResidence_other (s : State) (slot m : Nat) (r : Residence) (c : Carrier)
    (h : s.carrier slot = some c) (h1 : c.zone ≠ some m) (h2 : r.zone ≠ some m) :
    (s.changeResidence slot r).1.zone m = s.zone m := by
  cases hmv : c.moves r
  · rw [s.changeResidence_stays slot r c h hmv]
    rfl
  · have hc : (s.settled c).1.zone ≠ some m := by rw [(s.settled_kept c).2.2.2.1]; exact h1
    rw [s.changeResidence_moves slot r c h hmv]
    dsimp only
    rw [State.zone_settle_other _ _ _ _ (State.carrier_relocate _ slot slot r _ |>.trans (if_pos rfl)) (by exact h2),
      State.zone_relocate_other _ _ _ _ _ hc h2, State.zone_settle_other _ _ _ _ h h1]
theorem State.zones_length_changeResidence (s : State) (slot : Nat) (r : Residence) :
    (s.changeResidence slot r).1.zones.length = s.zones.length := by
  cases h : s.carrier slot with
  | none => simp [State.changeResidence, h]
  | some c =>
    cases hm : c.moves r
    · rw [s.changeResidence_stays slot r c h hm]; rfl
    · rw [s.changeResidence_moves slot r c h hm]
      dsimp only
      rw [State.settle_zones_length]
      unfold State.relocate
      dsimp only
      split
      · simp [State.setCarrier, State.settle_zones_length]
      · simp [State.setCarrier, State.settle_zones_length]

/-! A zone after a relocation -/

/-- A status added and taken out again leaves the counts as they were. -/
theorem LifeCounts.sub_add (k : LifeCounts) (a : Life) : (k.add a).sub a = k := by
  cases a <;> simp [LifeCounts.sub, LifeCounts.add]

/-- Withdrawing a slot undoes its filing (R17). -/
theorem withdrawSlot_insert (slot key : Nat) (l : List KeyEntry) :
    withdrawSlot slot (insertKey { slot := slot, key := key } l) = withdrawSlot slot l := by
  induction l with
  | nil => simp [insertKey, withdrawSlot]
  | cons h t ih =>
    simp only [insertKey]
    split
    · simp [withdrawSlot]
    · simp only [withdrawSlot, List.filter_cons] at ih ⊢
      split <;> simp_all

theorem withdrawSlot_insertOpt (slot : Nat) (key : Option Nat) (l : List KeyEntry) :
    withdrawSlot slot (insertKeyOpt slot key l) = withdrawSlot slot l := by
  cases key
  · rfl
  · exact withdrawSlot_insert _ _ _

theorem withdrawSlot_idem (slot : Nat) (l : List KeyEntry) : withdrawSlot slot (withdrawSlot slot l) = withdrawSlot slot l := by
  simp [withdrawSlot]

/-- A zone after a relocation: the keys withdrawn, the resident and status counts of both zones (R4, R45, R46). -/
theorem State.zone_relocate (s : State) (slot n : Nat) (r : Residence) (c : Carrier) (hn : n < s.zones.length) :
    (s.relocate slot r c).zone n =
      let z := if c.zone = some n then (s.zone n).withdraw slot else s.zone n
      if c.zone = r.zone then z
      else
        let z1 := if c.zone = some n then z.dropResident c.life else z
        if r.zone = some n then z1.addResident c.life else z1 := by
  have hs : ∀ (t : State) (m : Nat) (x : Carrier), (t.setCarrier m x).zone n = t.zone n := fun _ _ _ => rfl
  have hl : ∀ (t : State) (m : Nat) (x : Carrier), (t.setCarrier m x).zones.length = t.zones.length := fun _ _ _ => rfl
  unfold State.relocate
  by_cases h : c.zone = r.zone
  · simp only [h, if_true, hs, State.zone_modZoneOpt, hn, and_true]
  · simp only [h, if_false]
    simp only [State.zone_modZoneOpt, hs, hl, State.zones_length_modZoneOpt, hn, and_true]

end Sys2Proof.Machine
end

