-- ==== Sys2Proof/Laws/Store.lean ====
section
/-! SUPPORT. What the operations on containers, batches, entries and captures touch: each is the state it was given with
the named fields changed. -/

namespace Sys2Proof.Machine

/-! Containers -/

/-- Updates that touch the containers only, one after the other. -/
theorem containers_trans {s t u : State} (h1 : t = { s with containers := t.containers })
    (h2 : u = { t with containers := u.containers }) : u = { s with containers := u.containers } := by
  rw [h2, h1]

theorem State.foldContainers_eta {α : Type} (f : State → α → State)
    (hf : ∀ s a, f s a = { s with containers := (f s a).containers }) (l : List α) (s : State) :
    l.foldl f s = { s with containers := (l.foldl f s).containers } := by
  induction l generalizing s with
  | nil => rfl
  | cons a l ih =>
    rw [List.foldl_cons, ih, hf s a]

theorem State.foldCarriers_eta {α : Type} (f : State → α → State)
    (hf : ∀ s a, f s a = { s with carriers := (f s a).carriers }) (l : List α) (s : State) :
    l.foldl f s = { s with carriers := (l.foldl f s).carriers } := by
  induction l generalizing s with
  | nil => rfl
  | cons a l ih =>
    rw [List.foldl_cons, ih, hf s a]

theorem State.addSubtree_eta (s : State) (ns : List Nat) (k : Nat) :
    s.addSubtree ns k = { s with containers := (s.addSubtree ns k).containers } :=
  State.foldContainers_eta _ (fun s _ => s.modContainer_eta _ _) ns s

theorem State.subSubtree_eta (s : State) (ns : List Nat) (k : Nat) :
    s.subSubtree ns k = { s with containers := (s.subSubtree ns k).containers } :=
  State.foldContainers_eta _ (fun s _ => s.modContainer_eta _ _) ns s

theorem State.setDepthsFuel_eta (fuel : Nat) : ∀ (n d : Nat) (s : State),
    State.setDepthsFuel fuel n d s = { s with containers := (State.setDepthsFuel fuel n d s).containers } := by
  induction fuel with
  | zero => intros; rfl
  | succ fuel ih =>
    intro n d s
    simp only [State.setDepthsFuel]
    rw [State.foldContainers_eta _ _ (s.members n), s.modContainer_eta n]
    intro t it
    cases it with
    | carrier _ => rfl
    | container m => exact ih m (d + 1) t

theorem State.setDepths_eta (s : State) (n d : Nat) :
    s.setDepths n d = { s with containers := (s.setDepths n d).containers } :=
  State.setDepthsFuel_eta _ n d s

theorem State.addMember_eta (s : State) (n : Nat) (it : Item) :
    s.addMember n it = { s with containers := (s.addMember n it).containers } :=
  s.modContainer_eta _ _

theorem State.dropMember_eta (s : State) (n : Nat) (it : Item) :
    s.dropMember n it = { s with containers := (s.dropMember n it).containers } :=
  s.modContainer_eta _ _

theorem State.bumpContainer_eta (s : State) (n : Nat) :
    s.bumpContainer n = { s with containers := (s.bumpContainer n).containers } :=
  s.modContainer_eta _ _

/-- Taking a container in touches the containers only (R96). -/
theorem State.joinContainer_eta (s : State) (x t : Nat) :
    s.joinContainer x t = { s with containers := (s.joinContainer x t).containers } := by
  unfold State.joinContainer
  exact containers_trans
    (containers_trans
      (containers_trans (containers_trans (s.modContainer_eta _ _) (State.addMember_eta _ _ _))
        (State.setDepths_eta _ _ _))
      (State.addSubtree_eta _ _ _))
    (State.bumpContainer_eta _ _)

/-- Taking a container out touches the containers only (R99). -/
theorem State.leaveContainer_eta (s : State) (x : Nat) :
    s.leaveContainer x = { s with containers := (s.leaveContainer x).containers } := by
  unfold State.leaveContainer
  split
  · rfl
  · exact containers_trans
      (containers_trans
        (containers_trans (containers_trans (s.dropMember_eta _ _) (State.subSubtree_eta _ _ _))
          (State.modContainer_eta _ _ _))
        (State.setDepths_eta _ _ _))
      (State.bumpContainer_eta _ _)

/-- A carrier leaving its container touches the containers only (R83). -/
theorem State.leaveMembers_eta (s : State) (n : Nat) (p : Option Parent) :
    s.leaveMembers n p = { s with containers := (s.leaveMembers n p).containers } := by
  unfold State.leaveMembers
  split
  · rfl
  · exact containers_trans (s.dropMember_eta _ _) (State.subSubtree_eta _ _ _)

/-! Marks and batches -/

theorem State.markAll_eta (s : State) (b : Bool) (cs ks : List Nat) :
    s.markAll b cs ks =
      { s with carriers := (s.markAll b cs ks).carriers, containers := (s.markAll b cs ks).containers } := by
  unfold State.markAll
  rw [State.foldContainers_eta (State.markContainer b) (fun s _ => s.modContainer_eta _ _) ks,
    State.foldCarriers_eta (State.markCarrier b) (fun s _ => s.modCarrier_eta _ _) cs]

theorem State.carrier_foldMark (b : Bool) (m : Nat) : ∀ (l : List Nat) (s : State),
    (l.foldl (State.markCarrier b) s).carrier m =
      if m ∈ l then (s.carrier m).map fun c => { c with inTransit := b } else s.carrier m
  | [], s => by simp
  | n :: l, s => by
    rw [List.foldl_cons, State.carrier_foldMark b m l]
    have h : (State.markCarrier b s n).carrier m =
        if m = n then (s.carrier n).map fun c => { c with inTransit := b } else s.carrier m :=
      s.carrier_modCarrier n m _
    rw [h]
    by_cases hm : m = n
    · subst hm
      cases s.carrier m <;> simp
    · simp [hm]

theorem State.container_foldMark (b : Bool) (m : Nat) : ∀ (l : List Nat) (s : State),
    (l.foldl (State.markContainer b) s).container m =
      if m ∈ l then (s.container m).map fun c => { c with inTransit := b } else s.container m
  | [], s => by simp
  | n :: l, s => by
    rw [List.foldl_cons, State.container_foldMark b m l]
    have h : (State.markContainer b s n).container m =
        if m = n then (s.container n).map fun c => { c with inTransit := b } else s.container m :=
      s.container_modContainer n m _
    rw [h]
    by_cases hm : m = n
    · subst hm
      cases s.container m <;> simp
    · simp [hm]

/-- The carriers after marking or unmarking. -/
theorem State.carrier_markAll (s : State) (b : Bool) (cs ks : List Nat) (m : Nat) :
    (s.markAll b cs ks).carrier m =
      if m ∈ cs then (s.carrier m).map fun c => { c with inTransit := b } else s.carrier m := by
  rw [← State.carrier_foldMark b m cs s]
  unfold State.markAll
  rw [State.foldContainers_eta (State.markContainer b) (fun s _ => s.modContainer_eta _ _) ks]
  rfl

/-- The containers after marking or unmarking. -/
theorem State.container_markAll (s : State) (b : Bool) (cs ks : List Nat) (m : Nat) :
    (s.markAll b cs ks).container m =
      if m ∈ ks then (s.container m).map fun c => { c with inTransit := b } else s.container m := by
  unfold State.markAll
  rw [State.container_foldMark b m ks]
  have h : (cs.foldl (State.markCarrier b) s).container m = s.container m := by
    rw [State.foldCarriers_eta (State.markCarrier b) (fun s _ => s.modCarrier_eta _ _) cs]
    rfl
  rw [h]

/-- Acceptance touches the batch queue, the next number and the marks only (R125). -/
theorem State.acceptBatch_eta (s : State) (job : BatchJob) (l : Link) (walk ks : List Nat) :
    s.acceptBatch job l walk ks =
      { s with
        batches := (s.acceptBatch job l walk ks).batches
        nextBatch := (s.acceptBatch job l walk ks).nextBatch
        carriers := (s.acceptBatch job l walk ks).carriers
        containers := (s.acceptBatch job l walk ks).containers } := by
  unfold State.acceptBatch
  dsimp only
  rw [State.markAll_eta]

/-- Completion touches the queue, the quiesce state, the alerts, the classes' revisions, a zone's evacuating flag and what
the arbiter owes (R135). -/
theorem State.completeJob_eta (s : State) (j : BatchJob) :
    s.completeJob j = { s with classes := (s.completeJob j).classes, zones := (s.completeJob j).zones } := by
  unfold State.completeJob
  split
  · rfl
  · split <;> rfl
  · rfl

theorem State.oweWaiting_eta (s : State) : s.oweWaiting = { s with owed := s.oweWaiting.owed } := by
  unfold State.oweWaiting
  split <;> rfl

theorem State.completeBatch_eta (s : State) (b : Batch) :
    s.completeBatch b =
      { s with
        batches := s.batches.tail
        quiesce := (s.completeBatch b).quiesce
        classes := (s.completeBatch b).classes
        zones := (s.completeBatch b).zones
        alerts := (s.completeBatch b).alerts
        overflow := (s.completeBatch b).overflow
        owed := (s.completeBatch b).owed } := by
  unfold State.completeBatch
  dsimp only
  rw [State.oweWaiting_eta, State.raise_eta, State.completeJob_eta]

/-! Captures and entries -/

theorem State.testArrival_eta (s : State) (src : CaptureSource) (label : Label) (loc z : Nat) :
    (s.testArrival src label loc z).1 =
      { s with
        capture := (s.testArrival src label loc z).1.capture
        watch := (s.testArrival src label loc z).1.watch
        alerts := (s.testArrival src label loc z).1.alerts
        overflow := (s.testArrival src label loc z).1.overflow } := by
  unfold State.testArrival
  split
  · obtain ⟨cap, w, as, o, h⟩ := s.takeMatch_eta src label loc z s.watch.block
    dsimp only
    rw [h]
  · rfl

theorem State.testFinalArrival_eta (s : State) (label : Label) (loc z : Nat) :
    s.testFinalArrival label loc z =
      { s with
        capture := (s.testFinalArrival label loc z).capture
        watch := (s.testFinalArrival label loc z).watch
        alerts := (s.testFinalArrival label loc z).alerts
        overflow := (s.testFinalArrival label loc z).overflow } := by
  unfold State.testFinalArrival
  split
  · obtain ⟨cap, w, as, o, h⟩ := s.takeMatch_eta .batch label loc z false
    rw [h]
  · rfl

theorem State.unmappedFault_eta (s : State) (l : Link) (label : Option Label) (loc : Nat) :
    s.unmappedFault l label loc =
      { s with
        capture := (s.unmappedFault l label loc).capture
        moreFaults := (s.unmappedFault l label loc).moreFaults
        alerts := (s.unmappedFault l label loc).alerts
        overflow := (s.unmappedFault l label loc).overflow } := by
  obtain ⟨cap, m, as, o, h⟩ := s.raiseFault_eta .unmapped (linkSource l) label (some loc) none
  unfold State.unmappedFault
  rw [h]

/-- The state an entry test leaves. -/
def Entry.state : Entry → State
  | .refused s _ _ => s
  | .admitted s _ => s

/-- `t` is `s` but for the capture record, the watch and the Alert Queue. -/
def State.capturesOnly (s t : State) : Prop :=
  t =
    { s with
      capture := t.capture
      moreFaults := t.moreFaults
      watch := t.watch
      alerts := t.alerts
      overflow := t.overflow }

theorem State.capturesOnly_refl (s : State) : s.capturesOnly s := rfl

theorem State.capturesOnly_testArrival (s : State) (src : CaptureSource) (label : Label) (loc z : Nat) :
    s.capturesOnly (s.testArrival src label loc z).1 := by
  unfold State.capturesOnly
  rw [State.testArrival_eta]

theorem State.enterWatched_only (s : State) (l : Link) (label : Label) (loc z : Nat) (b : Bool) :
    s.capturesOnly (s.enterWatched l label loc z b).state := by
  unfold State.enterWatched
  split
  · dsimp only
    split
    · exact s.capturesOnly_testArrival _ _ _ _
    · exact s.capturesOnly_testArrival _ _ _ _
  · rfl

theorem State.enterZone_only (s : State) (l : Link) (label : Label) (loc z : Nat) (life : Life) (h b : Bool) :
    s.capturesOnly (s.enterZone l label loc z life h b).state := by
  unfold State.enterZone
  dsimp only
  split
  · rfl
  · split
    · rfl
    · split
      · rfl
      · exact s.enterWatched_only l label loc z b

theorem State.capturesOnly_unmapped (s : State) (l : Link) (label : Option Label) (loc : Nat) :
    s.capturesOnly (s.unmappedFault l label loc) := by
  unfold State.capturesOnly
  rw [State.unmappedFault_eta]

/-- The entry tests touch the capture record, the watch and the Alert Queue only (R74, R75, R165). -/
theorem State.enterCarrier_only (s : State) (l : Link) (label : Label) (loc : Nat) (life : Life) (h b : Bool) :
    s.capturesOnly (s.enterCarrier l label loc life h b).state := by
  unfold State.enterCarrier
  split
  · exact s.capturesOnly_unmapped _ _ _
  · exact s.enterZone_only _ _ _ _ _ _ _

theorem State.enterContainer_only (s : State) (l : Link) (label : Label) (loc : Nat) :
    s.capturesOnly (s.enterContainer l label loc).state := by
  unfold State.enterContainer
  split
  · exact s.capturesOnly_unmapped _ _ _
  · split
    · rfl
    · exact s.enterWatched_only _ _ _ _ _

/-- An admitted carrier's zone is the one its location maps to. -/
theorem State.enterCarrier_zone {s u : State} {l : Link} {label : Label} {loc z : Nat} {life : Life} {h b : Bool}
    (he : s.enterCarrier l label loc life h b = .admitted u z) : s.mapLoc loc = some z := by
  unfold State.enterCarrier at he
  split at he
  · simp at he
  · rename_i z' hm
    rw [hm]
    unfold State.enterZone State.enterWatched at he
    dsimp only at he
    split at he
    · simp at he
    · split at he
      · simp at he
      · split at he
        · simp at he
        · split at he
          · split at he <;> simp_all
          · simp_all

/-! Doors and modes -/

/-- Writing a recomputed zone touches the zones, the Alert Queue and its flag only. -/
theorem State.putZone_eta (s : State) (cause : Cause) (n : Nat) (z : Zone) :
    s.putZone cause n z =
      { s with
        zones := (s.putZone cause n z).zones
        alerts := (s.putZone cause n z).alerts
        overflow := (s.putZone cause n z).overflow } := by
  unfold State.putZone
  dsimp only
  split
  · split
    · rw [State.raise_eta]; rfl
    · rw [State.raise_eta]; rfl
    · rfl
  · rfl

theorem State.putZone_zones (s : State) (cause : Cause) (n : Nat) (z : Zone) :
    (s.putZone cause n z).zones = s.zones.set n (s.recompute z) := by
  unfold State.putZone
  dsimp only
  split
  · split
    · rw [State.raise_eta]; rfl
    · rw [State.raise_eta]; rfl
    · rfl
  · rfl

theorem State.openDoor_eta (s : State) (n : Nat) :
    s.openDoor n =
      { s with
        zones := (s.openDoor n).zones, alerts := (s.openDoor n).alerts, overflow := (s.openDoor n).overflow } := by
  unfold State.openDoor
  dsimp only
  split
  · exact s.putZone_eta _ _ _
  · rfl

theorem State.closeDoor_eta (s : State) (n : Nat) :
    s.closeDoor n =
      { s with
        zones := (s.closeDoor n).zones, alerts := (s.closeDoor n).alerts, overflow := (s.closeDoor n).overflow } := by
  unfold State.closeDoor
  dsimp only
  split
  · exact s.putZone_eta _ _ _
  · rfl

/-- A fold of updates that touch the zones and the Alert Queue touches no more. -/
theorem State.foldZones_eta {α : Type} (f : State → α → State)
    (hf : ∀ s a, f s a = { s with zones := (f s a).zones, alerts := (f s a).alerts, overflow := (f s a).overflow })
    (l : List α) (s : State) :
    l.foldl f s =
      { s with
        zones := (l.foldl f s).zones
        alerts := (l.foldl f s).alerts
        overflow := (l.foldl f s).overflow } := by
  induction l generalizing s with
  | nil => rfl
  | cons a l ih =>
    rw [List.foldl_cons, ih, hf s a]

theorem State.deliverDoor_eta (s : State) (line : Nat) (b : Bool) :
    s.deliverDoor line b =
      { s with
        zones := (s.deliverDoor line b).zones
        alerts := (s.deliverDoor line b).alerts
        overflow := (s.deliverDoor line b).overflow } := by
  unfold State.deliverDoor
  refine State.foldZones_eta _ ?_ _ s
  intro t n
  split
  · split
    · exact t.openDoor_eta n
    · exact t.closeDoor_eta n
  · rfl

/-! Due events -/

theorem State.takeZoneDue_eta (s : State) (n : Nat) :
    s.takeZoneDue n =
      { s with
        zones := (s.takeZoneDue n).zones
        alerts := (s.takeZoneDue n).alerts
        overflow := (s.takeZoneDue n).overflow } := by
  have h1 : ∀ t : State, t.takeGrace n =
      { t with zones := (t.takeGrace n).zones, alerts := (t.takeGrace n).alerts, overflow := (t.takeGrace n).overflow } := by
    intro t
    unfold State.takeGrace
    split
    · exact t.putZone_eta _ _ _
    · rfl
  have h2 : s.takeExpiry n =
      { s with
        zones := (s.takeExpiry n).zones, alerts := (s.takeExpiry n).alerts, overflow := (s.takeExpiry n).overflow } := by
    unfold State.takeExpiry
    split
    · exact s.putZone_eta _ _ _
    · rfl
  unfold State.takeZoneDue
  rw [h1, h2]

/-- Taking the due events touches the zones, the claims and the Alert Queue only. -/
theorem State.takeDue_eta (s : State) :
    s.takeDue =
      { s with
        zones := s.takeDue.zones
        claims := s.takeDue.claims
        alerts := s.takeDue.alerts
        overflow := s.takeDue.overflow } := by
  unfold State.takeDue
  split
  · have hl : ∀ (l : List Claim) (t : State), l.foldl State.lapse t =
        { t with
          claims := (l.foldl State.lapse t).claims
          alerts := (l.foldl State.lapse t).alerts
          overflow := (l.foldl State.lapse t).overflow } := by
      intro l
      induction l with
      | nil => intro t; rfl
      | cons c l ih =>
        intro t
        rw [List.foldl_cons, ih]
        have hc : t.lapse c =
            { t with
              claims := (t.lapse c).claims, alerts := (t.lapse c).alerts, overflow := (t.lapse c).overflow } := by
          unfold State.lapse
          rw [State.raise_eta]
          rfl
        rw [hc]
    dsimp only
    rw [hl, State.foldZones_eta State.takeZoneDue (fun s n => s.takeZoneDue_eta n)]
  · rfl

end Sys2Proof.Machine
end

