-- ==== Sys2Proof/Laws/Frame.lean ====
section
/-! SUPPORT. What every request leaves alone: the queue, the Power Controller's fields, the minute count, the pattern
clock and the door levels (State.fixed). -/

namespace Sys2Proof.Machine

/-! The shared operations -/

@[simp] theorem State.setLink_fixed (s : State) (l : Link) (ls : LinkState) : (s.setLink l ls).fixed = s.fixed := by
  cases l <;> rfl

@[simp] theorem State.setHand_fixed (s : State) (l : Link) (h : Option Hand) : (s.setHand l h).fixed = s.fixed := by
  cases l <;> rfl

@[simp] theorem State.setZone_fixed (s : State) (n : Nat) (z : Zone) : (s.setZone n z).fixed = s.fixed := by
  rfl

@[simp] theorem State.modZone_fixed (s : State) (n : Nat) (f : Zone → Zone) : (s.modZone n f).fixed = s.fixed := by
  rfl

@[simp] theorem State.modZoneOpt_fixed (s : State) (n : Option Nat) (f : Zone → Zone) : (s.modZoneOpt n f).fixed = s.fixed := by
  cases n <;> rfl

@[simp] theorem State.setCls_fixed (s : State) (n : Nat) (c : ClassRec) : (s.setCls n c).fixed = s.fixed := by
  rfl

@[simp] theorem State.storeClass_fixed (s : State) (n : Nat) (v : ClassValues) : (s.storeClass n v).fixed = s.fixed := by
  rfl

@[simp] theorem State.setCarrier_fixed (s : State) (n : Nat) (c : Carrier) : (s.setCarrier n c).fixed = s.fixed := by
  rfl

@[simp] theorem State.setContainer_fixed (s : State) (n : Nat) (c : Container) : (s.setContainer n c).fixed = s.fixed := by
  rfl

@[simp] theorem State.addLabel_fixed (s : State) (label : Label) (it : Item) : (s.addLabel label it).fixed = s.fixed := by
  rfl

@[simp] theorem State.reloadClaim_fixed (s : State) (l : Link) (it : Item) : (s.reloadClaim l it).fixed = s.fixed := by
  rfl

@[simp] theorem State.freeClaim_fixed (s : State) (it : Item) : (s.freeClaim it).fixed = s.fixed := by
  rfl

@[simp] theorem State.makeClaim_fixed (s : State) (l : Link) (it : Item) : (s.makeClaim l it).fixed = s.fixed := by
  rfl

@[simp] theorem State.forgetItem_fixed (s : State) (it : Item) : (s.forgetItem it).fixed = s.fixed := by
  rfl

@[simp] theorem State.grantPort_fixed (s : State) (l : Link) : (s.grantPort l).fixed = s.fixed := by
  rfl

@[simp] theorem State.grantStep_fixed (s : State) : (s.grantStep).fixed = s.fixed := by
  rfl

@[simp] theorem State.freeStore_fixed (s : State) : (s.freeStore).fixed = s.fixed := by
  unfold State.freeStore; split <;> rfl

@[simp] theorem State.clearFlags_fixed (s : State) (l : Link) : (s.clearFlags l).fixed = s.fixed := by
  cases l <;> rfl

@[simp] theorem State.erase_fixed (s : State) : (s.erase).fixed = s.fixed := by
  rfl

@[simp] theorem State.recomputeStale_fixed (s : State) : (s.recomputeStale).fixed = s.fixed := by
  rfl

@[simp] theorem State.recomputeActive_fixed (s : State) : (s.recomputeActive).fixed = s.fixed := by
  rfl

@[simp] theorem State.setOldest_fixed (s : State) (b : Batch) : (s.setOldest b).fixed = s.fixed := by
  rfl

@[simp] theorem State.raise_fixed (s : State) (k : AlertKind) (subj : Subject) (v : Option AlertValue) : (s.raise k subj v).fixed = s.fixed := by
  rw [State.raise_eta]; rfl

@[simp] theorem State.raiseAll_fixed (s : State) (ks : List AlertKind) (subj : Subject) : (s.raiseAll ks subj).fixed = s.fixed := by
  rw [State.raiseAll_eta]; rfl

@[simp] theorem State.bakeRefusal_fixed (s : State) (slot : Nat) (b : Bool) : (s.bakeRefusal slot b).fixed = s.fixed := by
  rw [State.bakeRefusal_eta]; rfl

@[simp] theorem State.modCarrier_fixed (s : State) (n : Nat) (f : Carrier → Carrier) : (s.modCarrier n f).fixed = s.fixed := by
  rw [State.modCarrier_eta]; rfl

@[simp] theorem State.modContainer_fixed (s : State) (n : Nat) (f : Container → Container) : (s.modContainer n f).fixed = s.fixed := by
  rw [State.modContainer_eta]; rfl

@[simp] theorem State.bumpCarrierIf_fixed (s : State) (n : Nat) (b : Bool) : (s.bumpCarrierIf n b).fixed = s.fixed := by
  rw [State.bumpCarrierIf_eta]; rfl

@[simp] theorem State.bumpCarrier_fixed (s : State) (n : Nat) : (s.bumpCarrier n).fixed = s.fixed := by
  exact s.modCarrier_fixed _ _

@[simp] theorem State.setHold_fixed (s : State) (n r : Nat) : (s.setHold n r).fixed = s.fixed := by
  unfold State.setHold; rw [State.bumpCarrier_fixed, State.modCarrier_fixed]

@[simp] theorem State.markCarrier_fixed (s : State) (b : Bool) (n : Nat) : (State.markCarrier b s n).fixed = s.fixed := by
  exact s.modCarrier_fixed _ _

@[simp] theorem State.settle_fixed (s : State) (slot : Nat) : ((s.settle slot).1).fixed = s.fixed := by
  rw [State.settle_eta]; rfl

@[simp] theorem State.settleStamped_fixed (s : State) (slot : Nat) : (s.settleStamped slot).fixed = s.fixed := by
  unfold State.settleStamped; dsimp only; rw [State.bumpCarrierIf_fixed, State.settle_fixed]

@[simp] theorem State.changeResidence_fixed (s : State) (slot : Nat) (r : Residence) : ((s.changeResidence slot r).1).fixed = s.fixed := by
  rw [State.changeResidence_eta]; rfl

@[simp] theorem State.addSubtree_fixed (s : State) (ns : List Nat) (k : Nat) : (s.addSubtree ns k).fixed = s.fixed := by
  rw [State.addSubtree_eta]; rfl

@[simp] theorem State.subSubtree_fixed (s : State) (ns : List Nat) (k : Nat) : (s.subSubtree ns k).fixed = s.fixed := by
  rw [State.subSubtree_eta]; rfl

@[simp] theorem State.addMember_fixed (s : State) (n : Nat) (it : Item) : (s.addMember n it).fixed = s.fixed := by
  rw [State.addMember_eta]; rfl

@[simp] theorem State.dropMember_fixed (s : State) (n : Nat) (it : Item) : (s.dropMember n it).fixed = s.fixed := by
  rw [State.dropMember_eta]; rfl

@[simp] theorem State.bumpContainer_fixed (s : State) (n : Nat) : (s.bumpContainer n).fixed = s.fixed := by
  rw [State.bumpContainer_eta]; rfl

@[simp] theorem State.joinContainer_fixed (s : State) (x t : Nat) : (s.joinContainer x t).fixed = s.fixed := by
  rw [State.joinContainer_eta]; rfl

@[simp] theorem State.leaveContainer_fixed (s : State) (x : Nat) : (s.leaveContainer x).fixed = s.fixed := by
  rw [State.leaveContainer_eta]; rfl

@[simp] theorem State.leaveMembers_fixed (s : State) (n : Nat) (p : Option Parent) : (s.leaveMembers n p).fixed = s.fixed := by
  rw [State.leaveMembers_eta]; rfl

@[simp] theorem State.markAll_fixed (s : State) (b : Bool) (cs ks : List Nat) : (s.markAll b cs ks).fixed = s.fixed := by
  rw [State.markAll_eta]; rfl

@[simp] theorem State.acceptBatch_fixed (s : State) (job : BatchJob) (l : Link) (walk ks : List Nat) : (s.acceptBatch job l walk ks).fixed = s.fixed := by
  rw [State.acceptBatch_eta]; rfl

@[simp] theorem State.completeBatch_fixed (s : State) (b : Batch) : (s.completeBatch b).fixed = s.fixed := by
  rw [State.completeBatch_eta]; rfl

@[simp] theorem State.testArrival_fixed (s : State) (src : CaptureSource) (label : Label) (loc z : Nat) : ((s.testArrival src label loc z).1).fixed = s.fixed := by
  rw [State.testArrival_eta]; rfl

@[simp] theorem State.testFinalArrival_fixed (s : State) (label : Label) (loc z : Nat) : (s.testFinalArrival label loc z).fixed = s.fixed := by
  rw [State.testFinalArrival_eta]; rfl

@[simp] theorem State.unmappedFault_fixed (s : State) (l : Link) (label : Option Label) (loc : Nat) : (s.unmappedFault l label loc).fixed = s.fixed := by
  rw [State.unmappedFault_eta]; rfl

@[simp] theorem State.raiseFault_fixed (s : State) (kind : CaptureKind) (source : CaptureSource) (label : Option Label) (loc zone : Option Nat) : (s.raiseFault kind source label loc zone).fixed = s.fixed := by
  obtain ⟨_, _, _, _, h⟩ := s.raiseFault_eta kind source label loc zone; rw [h]; rfl

@[simp] theorem State.putZone_fixed (s : State) (cause : Cause) (n : Nat) (z : Zone) : (s.putZone cause n z).fixed = s.fixed := by
  rw [State.putZone_eta]; rfl

@[simp] theorem State.deliverDoor_fixed (s : State) (line : Nat) (b : Bool) : (s.deliverDoor line b).fixed = s.fixed := by
  have h := s.deliverDoor_eta line b
  revert h
  generalize s.deliverDoor line b = t
  intro h
  rw [h]; rfl

theorem State.takeExpiry_eta (s : State) (n : Nat) :
    s.takeExpiry n =
      { s with zones := (s.takeExpiry n).zones, alerts := (s.takeExpiry n).alerts, overflow := (s.takeExpiry n).overflow } := by
  unfold State.takeExpiry
  split
  · exact s.putZone_eta _ _ _
  · rfl

@[simp] theorem State.takeExpiry_fixed (s : State) (n : Nat) : (s.takeExpiry n).fixed = s.fixed := by
  rw [State.takeExpiry_eta]; rfl

theorem State.takeGrace_eta (s : State) (n : Nat) :
    s.takeGrace n =
      { s with zones := (s.takeGrace n).zones, alerts := (s.takeGrace n).alerts, overflow := (s.takeGrace n).overflow } := by
  unfold State.takeGrace
  split
  · exact s.putZone_eta _ _ _
  · rfl

@[simp] theorem State.takeGrace_fixed (s : State) (n : Nat) : (s.takeGrace n).fixed = s.fixed := by
  rw [State.takeGrace_eta]; rfl

@[simp] theorem State.takeDue_fixed (s : State) : (s.takeDue).fixed = s.fixed := by
  have h := s.takeDue_eta
  revert h
  generalize s.takeDue = t
  intro h
  rw [h]; rfl


/-- A state that differs in the capture record, the watch and the alerts only. -/
theorem State.capturesOnly_fixed {s t : State} (h : s.capturesOnly t) : t.fixed = s.fixed := by
  rw [h]; rfl

/-- A fold of updates that leave the fixed fields alone. -/
theorem State.foldl_fixed {α : Type} (f : State → α → State) (hf : ∀ s a, (f s a).fixed = s.fixed) :
    ∀ (l : List α) (s : State), (l.foldl f s).fixed = s.fixed
  | [], _ => rfl
  | a :: l, s => by rw [List.foldl_cons, State.foldl_fixed f hf l, hf]

/-! The order of checks -/

/-- The state the order of checks leaves. -/
def Checked.state : Checked → State
  | .refused s _ => s
  | .passed s _ => s

theorem State.checkStamp_fixed (s : State) (it : Item) (stamp : Nat) : (s.checkStamp it stamp).state.fixed = s.fixed := by
  unfold State.checkStamp
  split
  · rfl
  · split <;> rfl

theorem State.checkClaim_fixed (s : State) (l : Link) (it : Item) (next : State → Checked)
    (h : ∀ t, (next t).state.fixed = t.fixed) : (s.checkClaim l it next).state.fixed = s.fixed := by
  unfold State.checkClaim
  split
  · rfl
  · rw [h]; rfl

theorem State.checkItem_fixed (s : State) (l : Link) (label : Label) (stamp : Nat) :
    (s.checkItem l label stamp).state.fixed = s.fixed := by
  unfold State.checkItem
  split
  · rfl
  · split
    · rfl
    · exact s.checkClaim_fixed _ _ _ fun t => t.checkStamp_fixed _ _

theorem runChecked_fixed (s : State) (c : Checked) (f g : Nat → Owner) (hc : c.state.fixed = s.fixed)
    (hf : ∀ n t, ((f n) t).1.fixed = t.fixed) (hg : ∀ n t, ((g n) t).1.fixed = t.fixed) :
    (runChecked c f g).1.fixed = s.fixed := by
  unfold runChecked
  split
  · exact hc
  · rw [hf]; exact hc
  · rw [hg]; exact hc

theorem itemRequest_fixed (l : Link) (label : Label) (stamp : Nat) (f g : Nat → Owner)
    (hf : ∀ n t, ((f n) t).1.fixed = t.fixed) (hg : ∀ n t, ((g n) t).1.fixed = t.fixed) (s : State) :
    (itemRequest l label stamp f g s).1.fixed = s.fixed :=
  runChecked_fixed s _ f g (s.checkItem_fixed l label stamp) hf hg

@[simp] theorem State.refuseCarrier_fixed (s : State) (n : Nat) (b : Bool) (st : Byte) (x : List Byte) :
    (s.refuseCarrier n b st x).1.fixed = s.fixed := s.bumpCarrierIf_fixed n b

theorem withSettled_fixed (n : Nat) (act : Carrier → Bool → Owner) (h : ∀ c b t, (act c b t).1.fixed = t.fixed)
    (s : State) : (withSettled n act s).1.fixed = s.fixed := by
  unfold withSettled
  dsimp only
  split
  · exact s.settle_fixed n
  · rw [h]; exact s.settle_fixed n

@[simp] theorem State.moveCarrier_fixed (s : State) (n : Nat) (c : Carrier) (r : Residence) :
    (s.moveCarrier n c r).fixed = s.fixed := by
  unfold State.moveCarrier
  dsimp only
  split <;> simp

@[simp] theorem State.movedReply_fixed (s : State) (n : Nat) (c : Carrier) (r : Residence) :
    (s.movedReply n c r).1.fixed = s.fixed := s.moveCarrier_fixed n c r

/-! Serving -/

@[simp] theorem State.present_fixed (s : State) (l : Link) (c : Instr) : (s.present l c).fixed = s.fixed := by
  unfold State.present
  split
  · rfl
  · split
    · simp
    · rfl

theorem State.act_fixed (s : State) (l : Link) (c : Instr) (own : Owner) (h : ∀ t, (own t).1.fixed = t.fixed) :
    (s.act l c own).fixed = s.fixed := by
  unfold State.act
  dsimp only
  split
  · rfl
  · simp [h]

/-- Serving a request changes the fixed fields only where its owner does. -/
theorem serve_fixed (l : Link) (c : Instr) (own : Owner) (s : State) (h : ∀ t, (own t).1.fixed = t.fixed) :
    ∃ t, serve l c own s = .next t ∧ t.fixed = s.fixed := by
  unfold serve
  dsimp only
  split
  · refine ⟨_, rfl, ?_⟩
    unfold State.serveInHand
    split
    · split
      · split
        · unfold State.actInStore
          rw [State.freeStore_fixed, State.act_fixed _ _ _ _ h]
          simp
        · simp
      · rw [State.act_fixed _ _ _ _ h]
        simp
    · simp
  · exact ⟨_, rfl, s.takeDue_fixed⟩

end Sys2Proof.Machine
end

