-- ==== Sys2Proof/Laws/Owners.lean ====
section
/-! SUPPORT. No owner of a request changes a fixed field. -/

namespace Sys2Proof.Machine

@[simp] theorem ownStatus_fixed (l : Link) (s : State) : (ownStatus l s).1.fixed = s.fixed := s.clearFlags_fixed l

@[simp] theorem ownSetClock_fixed (w : Word) (s : State) : (ownSetClock w s).1.fixed = s.fixed := rfl

theorem State.applyArbiterMode_fixed (old : UnitSettings) (s : State) : (s.applyArbiterMode old).fixed = s.fixed := by
  unfold State.applyArbiterMode
  split <;> rfl

theorem State.applyStaleRate_fixed (old : UnitSettings) (s : State) : (s.applyStaleRate old).fixed = s.fixed := by
  unfold State.applyStaleRate
  split
  · rfl
  · exact s.recomputeStale_fixed

theorem State.applyInversion_fixed (old : UnitSettings) (s : State) : (s.applyInversion old).fixed = s.fixed := by
  unfold State.applyInversion
  refine State.foldl_fixed _ ?_ _ s
  intro t n
  split
  · rfl
  · exact t.deliverDoor_fixed _ _

@[simp] theorem ownSetUnit_fixed (f : UnitFields) (s : State) : (ownSetUnit f s).1.fixed = s.fixed := by
  unfold ownSetUnit
  split
  · rfl
  · dsimp only
    rw [State.applyInversion_fixed, State.applyStaleRate_fixed, State.applyArbiterMode_fixed]
    rfl

@[simp] theorem ownErase_fixed (s : State) : (ownErase s).1.fixed = s.fixed := by
  unfold ownErase
  split
  · rfl
  · split <;> rfl

@[simp] theorem ownQuiesceImmediate_fixed (s : State) : (ownQuiesceImmediate s).1.fixed = s.fixed := by
  unfold ownQuiesceImmediate
  dsimp only
  split <;> rfl

@[simp] theorem ownQuiesceConditional_fixed (s : State) : (ownQuiesceConditional s).1.fixed = s.fixed := by
  unfold ownQuiesceConditional
  split <;> rfl

@[simp] theorem ownResume_fixed (s : State) : (ownResume s).1.fixed = s.fixed := by
  unfold ownResume
  split <;> rfl

/-! Enrolment -/

theorem State.formCarrier_fixed (s : State) (slot : Nat) (label : Label) (c : Carrier) :
    (s.formCarrier slot label c).fixed = s.fixed := by
  unfold State.formCarrier
  simp

theorem enrolAt_fixed (slot : Nat) (label : Label) (cls x : Nat) (b : Bool) (k : Nat) (p : Option Parent)
    (z : Option Nat) (s : State) : (enrolAt slot label cls x b k p z s).1.fixed = s.fixed :=
  s.formCarrier_fixed _ _ _

/-- An entry test leaves the fixed fields alone, whatever its outcome. -/
theorem State.enterCarrier_refused_fixed {s u : State} {l : Link} {label : Label} {loc : Nat} {life : Life} {h b : Bool}
    {st : Byte} {x : List Byte} (he : s.enterCarrier l label loc life h b = .refused u st x) : u.fixed = s.fixed := by
  have := s.enterCarrier_only l label loc life h b
  rw [he] at this
  exact State.capturesOnly_fixed this

theorem State.enterCarrier_admitted_fixed {s u : State} {l : Link} {label : Label} {loc z : Nat} {life : Life}
    {h b : Bool} (he : s.enterCarrier l label loc life h b = .admitted u z) : u.fixed = s.fixed := by
  have := s.enterCarrier_only l label loc life h b
  rw [he] at this
  exact State.capturesOnly_fixed this

theorem State.enterContainer_refused_fixed {s u : State} {l : Link} {label : Label} {loc : Nat} {st : Byte}
    {x : List Byte} (he : s.enterContainer l label loc = .refused u st x) : u.fixed = s.fixed := by
  have := s.enterContainer_only l label loc
  rw [he] at this
  exact State.capturesOnly_fixed this

theorem State.enterContainer_admitted_fixed {s u : State} {l : Link} {label : Label} {loc z : Nat}
    (he : s.enterContainer l label loc = .admitted u z) : u.fixed = s.fixed := by
  have := s.enterContainer_only l label loc
  rw [he] at this
  exact State.capturesOnly_fixed this

theorem enrolInSlot_fixed (l : Link) (label : Label) (cls x : Nat) (b : Bool) (k : Nat) (loc : Option Nat) (slot : Nat)
    (s : State) : (enrolInSlot l label cls x b k loc slot s).1.fixed = s.fixed := by
  unfold enrolInSlot
  split
  · exact enrolAt_fixed _ _ _ _ _ _ _ _ s
  · split
    · rename_i h; exact State.enterCarrier_refused_fixed h
    · rename_i h; rw [enrolAt_fixed]; exact State.enterCarrier_admitted_fixed h

@[simp] theorem ownEnrolCarrier_fixed (l : Link) (label : Label) (cls : Byte) (m : Word) (p k : Byte) (loc : Option Half)
    (s : State) : (ownEnrolCarrier l label cls m p k loc s).1.fixed = s.fixed := by
  unfold ownEnrolCarrier
  repeat' split
  all_goals first | rfl | exact enrolInSlot_fixed _ _ _ _ _ _ _ _ s

theorem enrolContainerAt_fixed (n : Nat) (label : Label) (b : Bool) (p : Option Parent) (z : Option Nat) (s : State) :
    (enrolContainerAt n label b p z s).1.fixed = s.fixed := by
  simp [enrolContainerAt]

@[simp] theorem ownEnrolContainer_fixed (l : Link) (label : Label) (p : Byte) (loc : Option Half) (s : State) :
    (ownEnrolContainer l label p loc s).1.fixed = s.fixed := by
  unfold ownEnrolContainer
  split
  · rfl
  · split
    · rfl
    · split
      · rfl
      · split
        · exact enrolContainerAt_fixed _ _ _ _ _ s
        · split
          · rename_i h; exact State.enterContainer_refused_fixed h
          · rename_i h; rw [enrolContainerAt_fixed]; exact State.enterContainer_admitted_fixed h

/-! Movement -/

theorem openInPlace_fixed (n : Nat) (c : Carrier) (b : Bool) (s : State) : (openInPlace n c b s).1.fixed = s.fixed := by
  unfold openInPlace
  dsimp only
  repeat' split
  all_goals simp

theorem openAt_fixed (l : Link) (label : Label) (loc n : Nat) (c : Carrier) (b : Bool) (s : State) :
    (openAt l label loc n c b s).1.fixed = s.fixed := by
  unfold openAt
  split
  · simp
  · split
    · rename_i h; rw [State.refuseCarrier_fixed]; exact State.enterCarrier_refused_fixed h
    · rename_i h; rw [State.movedReply_fixed]; exact State.enterCarrier_admitted_fixed h

theorem openCarrier_fixed (l : Link) (label : Label) (loc : Option Nat) (n : Nat) (s : State) :
    (openCarrier l label loc n s).1.fixed = s.fixed := by
  refine withSettled_fixed _ _ ?_ s
  intro c b t
  split
  · simp
  · split
    · exact openInPlace_fixed _ _ _ t
    · exact openAt_fixed _ _ _ _ _ _ t

theorem queuePacking_fixed (l : Link) (job : BatchJob) (n : Nat) (s : State) :
    (queuePacking l job n s).1.fixed = s.fixed := by
  unfold queuePacking
  repeat' split
  all_goals first | rfl | exact s.acceptBatch_fixed _ _ _ _

theorem openContainer_fixed (l : Link) (loc : Option Nat) (n : Nat) (s : State) :
    (openContainer l loc n s).1.fixed = s.fixed := by
  unfold openContainer
  repeat' split
  all_goals first | rfl | exact queuePacking_fixed _ _ _ s

@[simp] theorem ownOpen_fixed (l : Link) (label : Label) (st loc : Option Half) (s : State) :
    (ownOpen l label st loc s).1.fixed = s.fixed :=
  itemRequest_fixed _ _ _ _ _ (fun n t => openCarrier_fixed _ _ _ n t) (fun n t => openContainer_fixed _ _ n t) s

theorem placeAdmitted_fixed (loc n : Nat) (c : Carrier) (b : Bool) (z : Nat) (s : State) :
    (placeAdmitted loc n c b z s).1.fixed = s.fixed := by
  unfold placeAdmitted
  split <;> simp

theorem placeCarrier_fixed (l : Link) (label : Label) (loc n : Nat) (s : State) :
    (placeCarrier l label loc n s).1.fixed = s.fixed := by
  refine withSettled_fixed _ _ ?_ s
  intro c b t
  split
  · simp
  · split
    · rename_i h; rw [State.refuseCarrier_fixed]; exact State.enterCarrier_refused_fixed h
    · rename_i h; rw [placeAdmitted_fixed]; exact State.enterCarrier_admitted_fixed h

theorem queueMove_fixed (l : Link) (loc n z : Nat) (s : State) : (queueMove l loc n z s).1.fixed = s.fixed := by
  unfold queueMove
  repeat' split
  all_goals first | rfl | exact s.acceptBatch_fixed _ _ _ _

theorem placeContainer_fixed (l : Link) (label : Label) (loc n : Nat) (s : State) :
    (placeContainer l label loc n s).1.fixed = s.fixed := by
  unfold placeContainer
  split
  · rfl
  · split
    · exact s.unmappedFault_fixed _ _ _
    · split
      · rfl
      · exact queueMove_fixed _ _ _ _ s

@[simp] theorem ownPlace_fixed (l : Link) (label : Label) (st loc : Half) (s : State) :
    (ownPlace l label st loc s).1.fixed = s.fixed :=
  itemRequest_fixed _ _ _ _ _ (fun n t => placeCarrier_fixed _ _ _ n t) (fun n t => placeContainer_fixed _ _ _ n t) s

@[simp] theorem ownPack_fixed (l : Link) (label : Label) (st : Option Half) (s : State) :
    (ownPack l label st s).1.fixed = s.fixed := by
  refine itemRequest_fixed _ _ _ _ _ ?_ ?_ s
  · intro n t
    refine withSettled_fixed _ _ ?_ t
    intro c b u
    split <;> simp
  · intro n t
    unfold packContainer
    split
    · rfl
    · exact queuePacking_fixed _ _ _ t

/-! Nesting -/

theorem State.checkNest_fixed (s : State) (l : Link) (label target : Label) (stamp : Nat) :
    (s.checkNest l label target stamp).state.fixed = s.fixed := by
  unfold State.checkNest
  split
  · rfl
  · rfl
  · split
    · rfl
    · exact s.checkClaim_fixed _ _ _ fun t => t.checkClaim_fixed _ _ _ fun u => u.checkStamp_fixed _ _

theorem queueReparent_fixed (l : Link) (job : BatchJob) (x above : Nat) (s : State) :
    (queueReparent l job x above s).1.fixed = s.fixed := by
  unfold queueReparent
  split
  · rfl
  · exact s.acceptBatch_fixed _ _ _ _

@[simp] theorem ownNest_fixed (l : Link) (label target : Label) (st : Option Half) (s : State) :
    (ownNest l label target st s).1.fixed = s.fixed := by
  refine runChecked_fixed s _ _ _ (s.checkNest_fixed _ _ _ _) ?_ ?_
  · intro n t
    refine withSettled_fixed _ _ ?_ t
    intro c b u
    split
    · simp
    · simp [nestCarrierInto]
  · intro n t
    unfold nestContainer
    split
    · rfl
    · dsimp only
      split
      · exact queueReparent_fixed _ _ _ _ t
      · exact t.joinContainer_fixed _ _

theorem State.unnestParent_fixed (s : State) (l : Link) (it : Item) : (s.unnestParent l it).1.fixed = s.fixed := by
  unfold State.unnestParent
  split
  · rfl
  · split
    · rfl
    · dsimp only
      split <;> rfl

@[simp] theorem ownUnnest_fixed (l : Link) (label : Label) (st : Option Half) (s : State) :
    (ownUnnest l label st s).1.fixed = s.fixed := by
  refine itemRequest_fixed _ _ _ _ _ ?_ ?_ s
  · intro n t
    refine withSettled_fixed _ _ ?_ t
    intro c b u
    have h := u.unnestParent_fixed l (.carrier n)
    split
    · rename_i hp; rw [hp] at h; simpa using h
    · rename_i hp
      rw [hp] at h
      split
      · simpa using h
      · unfold unnestCarrierFrom
        dsimp only
        rw [State.movedReply_fixed, State.subSubtree_fixed, State.dropMember_fixed]
        exact h
  · intro n t
    have h := t.unnestParent_fixed l (.container n)
    unfold unnestContainer
    split
    · rename_i hp; rw [hp] at h; exact h
    · rename_i hp
      rw [hp] at h
      split
      · rw [queueReparent_fixed]; exact h
      · exact (State.leaveContainer_fixed _ _).trans h

/-! Retire, hold, evacuate -/

theorem State.withCarriers_fixed (s : State) (x : List (Nat × Carrier)) :
    State.fixed { s with carriers := x } = s.fixed := rfl

theorem State.withContainers_fixed (s : State) (x : List (Nat × Container)) :
    State.fixed { s with containers := x } = s.fixed := rfl

theorem State.freeCarrier_fixed (s : State) (n : Nat) (c : Carrier) : (s.freeCarrier n c).fixed = s.fixed := by
  unfold State.freeCarrier
  dsimp only
  rw [State.withCarriers_fixed, State.forgetItem_fixed, State.setCls_fixed, State.leaveMembers_fixed,
    State.modZoneOpt_fixed]

theorem State.freeContainer_fixed (s : State) (n : Nat) (c : Container) : (s.freeContainer n c).fixed = s.fixed := by
  unfold State.freeContainer
  dsimp only
  rw [State.withContainers_fixed, State.forgetItem_fixed, State.modZoneOpt_fixed]
  split
  · rfl
  · exact s.dropMember_fixed _ _

@[simp] theorem ownRetire_fixed (l : Link) (label : Label) (st : Option Half) (s : State) :
    (ownRetire l label st s).1.fixed = s.fixed := by
  refine itemRequest_fixed _ _ _ _ _ ?_ ?_ s
  · intro n t
    refine withSettled_fixed _ _ ?_ t
    intro c b u
    dsimp only
    rw [State.freeCarrier_fixed, State.bumpCarrierIf_fixed]
  · intro n t
    unfold retireContainer
    split
    · rfl
    · split
      · rfl
      · exact t.freeContainer_fixed _ _

theorem holdContainer_fixed (n : Nat) (t : State) : (holdContainer n t).1.fixed = t.fixed := rfl

theorem holdCarrier_fixed (r n : Nat) (s : State) : (holdCarrier r n s).1.fixed = s.fixed := by
  refine withSettled_fixed _ _ ?_ s
  intro c b u
  show (if c.hold = r then u.bumpCarrierIf n b else u.setHold n r).fixed = u.fixed
  split
  · exact u.bumpCarrierIf_fixed n b
  · exact u.setHold_fixed n r

theorem unholdCarrier_fixed (n : Nat) (s : State) : (unholdCarrier n s).1.fixed = s.fixed := by
  refine withSettled_fixed _ _ ?_ s
  intro c b u
  show (if c.hold = 0 then u.refuseCarrier n b stState []
    else (u.setHold n 0, (u.setHold n 0).pastStep8 stDone (.carrier n))).1.fixed = u.fixed
  split
  · exact u.refuseCarrier_fixed n b _ _
  · exact u.setHold_fixed n 0

@[simp] theorem ownHold_fixed (l : Link) (label : Label) (r : Byte) (st : Option Half) (s : State) :
    (ownHold l label r st s).1.fixed = s.fixed :=
  itemRequest_fixed _ _ _ _ _ (fun n t => holdCarrier_fixed _ n t) holdContainer_fixed s

@[simp] theorem ownUnhold_fixed (l : Link) (label : Label) (st : Option Half) (s : State) :
    (ownUnhold l label st s).1.fixed = s.fixed :=
  itemRequest_fixed _ _ _ _ _ unholdCarrier_fixed holdContainer_fixed s

@[simp] theorem ownEvacuate_fixed (l : Link) (z : Byte) (loc : Half) (s : State) :
    (ownEvacuate l z loc s).1.fixed = s.fixed := by
  unfold ownEvacuate
  split
  · rfl
  · split
    · rfl
    · split
      · exact s.unmappedFault_fixed _ _ _
      · unfold evacuateTo
        repeat' split
        all_goals first | rfl | simp [queueEvacuate]

/-! Reading -/

@[simp] theorem ownLookup_fixed (label : Label) (st : Option Byte) (s : State) :
    (ownLookup label st s).1.fixed = s.fixed := by
  unfold ownLookup
  split
  · rfl
  · unfold lookupCarrier
    dsimp only
    split <;> exact s.settleStamped_fixed _
  · unfold lookupContainer
    split <;> rfl

@[simp] theorem ownZoneInfo_fixed (z : Byte) (s : State) : (ownZoneInfo z s).1.fixed = s.fixed := rfl

@[simp] theorem ownResidents_fixed (z : Byte) (st : Half) (s : State) : (ownResidents z st s).1.fixed = s.fixed := rfl

@[simp] theorem ownBatchInfo_fixed (st : Option Byte) (s : State) : (ownBatchInfo st s).1.fixed = s.fixed := rfl

@[simp] theorem ownClassInfo_fixed (c : Byte) (s : State) : (ownClassInfo c s).1.fixed = s.fixed := rfl

/-! Tables and readings -/

@[simp] theorem ownSetZone_fixed (f : ZoneFields) (s : State) : (ownSetZone f s).1.fixed = s.fixed := by
  unfold ownSetZone
  dsimp only
  split
  · rfl
  · split
    · rfl
    · exact s.putZone_fixed _ _ _

@[simp] theorem ownSetClassDefine_fixed (c : Byte) (v : ClassFields) (s : State) :
    (ownSetClassDefine c v s).1.fixed = s.fixed := by
  unfold ownSetClassDefine
  split
  · rfl
  · split <;> rfl

@[simp] theorem ownSetClassRevise_fixed (l : Link) (c : Byte) (v : ClassFields) (s : State) :
    (ownSetClassRevise l c v s).1.fixed = s.fixed := by
  unfold ownSetClassRevise
  dsimp only
  split
  · rfl
  · split
    · rfl
    · split
      · rfl
      · split
        · rfl
        · unfold reviseInUse
          split
          · rfl
          · simp

@[simp] theorem ownSetClassUndefine_fixed (c : Byte) (s : State) : (ownSetClassUndefine c s).1.fixed = s.fixed := by
  unfold ownSetClassUndefine
  dsimp only
  repeat' split
  all_goals rfl

@[simp] theorem ownSetGrid_fixed (f : GridFields) (s : State) : (ownSetGrid f s).1.fixed = s.fixed := by
  unfold ownSetGrid
  split <;> rfl

@[simp] theorem ownAmbient_fixed (z : Byte) (t h : Half) (s : State) : (ownAmbient z t h s).1.fixed = s.fixed := by
  unfold ownAmbient
  dsimp only
  repeat' split
  all_goals first | exact s.raiseFault_fixed _ _ _ _ _ | exact s.putZone_fixed _ _ _

/-! Claims, capture, alerts -/

theorem State.settleItem_fixed (s : State) (it : Item) : (s.settleItem it).fixed = s.fixed := by
  cases it
  · exact s.settleStamped_fixed _
  · rfl

@[simp] theorem ownClaim_fixed (l : Link) (label : Label) (s : State) : (ownClaim l label s).1.fixed = s.fixed := by
  unfold ownClaim
  split
  · rfl
  · split
    · rfl
    · split
      · rfl
      · split
        · rfl
        · unfold claimSettled
          repeat' split
          all_goals exact s.settleItem_fixed _

@[simp] theorem ownRelease_fixed (l : Link) (label : Label) (s : State) : (ownRelease l label s).1.fixed = s.fixed := by
  unfold ownRelease
  split
  · rfl
  · split
    · rfl
    · split
      · rfl
      · unfold releaseSettled
        split
        all_goals exact s.settleItem_fixed _

@[simp] theorem ownWatchSet_fixed (b : Half) (k m : Byte) (o : Option Byte) (s : State) :
    (ownWatchSet b k m o s).1.fixed = s.fixed := rfl

@[simp] theorem ownWatchArm_fixed (s : State) : (ownWatchArm s).1.fixed = s.fixed := by
  unfold ownWatchArm
  split <;> rfl

@[simp] theorem ownWatchDisarm_fixed (s : State) : (ownWatchDisarm s).1.fixed = s.fixed := rfl

@[simp] theorem ownCapRead_fixed (s : State) : (ownCapRead s).1.fixed = s.fixed := rfl

@[simp] theorem ownCapClear_fixed (s : State) : (ownCapClear s).1.fixed = s.fixed := rfl

@[simp] theorem ownAlerts_fixed (m : Option Byte) (s : State) : (ownAlerts m s).1.fixed = s.fixed := rfl

end Sys2Proof.Machine
end

