-- ==== Sys2Proof/Laws/Items.lean ====
section
/-! SUPPORT. Step 8 of a request for a live carrier: its refusals, and what moving the carrier leaves. -/

namespace Sys2Proof.Machine
open Sys2Proof

/-- Step 8 of a live carrier: the act on the settled record, in the settled state (R70). -/
theorem withSettled_eq {s : State} {n : Nat} {c : Carrier} (act : Carrier → Bool → Owner) (h : s.carrier n = some c) :
    withSettled n act s =
      act (s.settled c).1
        (decide (c.life ≠ (s.settled c).1.life) || decide (c.bakeCount ≠ (s.settled c).1.bakeCount)) (s.settle n).1 := by
  simp [withSettled, State.carrier_settle, h, State.settle_changed s n c h]

/-- A refusal at step 8 of a carrier, its settle standing (R68, R70). -/
theorem State.refuseCarrier_eq {u : State} {n : Nat} {c k : Carrier} (l : Link) (kind tag st : Byte) (extra : List Byte)
    (h : u.carrier n = some k) (hs : k.stamp = c.stamp) :
    (u.refuseCarrier n (decide (c.life ≠ k.life) || decide (c.bakeCount ≠ k.bakeCount)) st extra).1.ends l kind tag
        (u.refuseCarrier n (decide (c.life ≠ k.life) || decide (c.bakeCount ≠ k.bakeCount)) st extra).2 =
      u.refusesAtEight l kind tag n c k st extra := by
  have hb : ∀ b : Bool, (u.bumpCarrierIf n b).carrier n =
      some { k with stamp := if b then nextStamp c.stamp else c.stamp } := by
    intro b
    cases b
    · simp [State.bumpCarrierIf, h, hs.symm]
    · simp [State.bumpCarrierIf, State.bumpCarrier, State.modCarrier, h, hs]
  unfold State.refusesAtEight
  simp only [State.refuseCarrier, State.pastStep8, hb, stampAfterSettle, Bool.or_eq_true, decide_eq_true_eq]
  rfl

/-- The record a residence change leaves is live and keeps its stamp. -/
theorem State.changeResidence_live {g : State} {n : Nat} {k : Carrier} (r : Residence) (h : g.carrier n = some k) :
    ∃ e, (g.changeResidence n r).1.carrier n = some e ∧ e.stamp = k.stamp ∧ e.cls = k.cls ∧ e.mode = r.mode := by
  cases hm : k.moves r
  · rw [g.changeResidence_stays n r k h hm]
    refine ⟨_, State.carrier_setCarrier _ _ _, rfl, rfl, ?_⟩
    simp only [Carrier.moves, Bool.or_eq_false_iff, decide_eq_false_iff_not, ne_eq, Decidable.not_not] at hm
    exact hm.1.2
  · rw [State.carrier_changeResidence g n n r k h hm, if_pos rfl]
    have h1 := g.settled_kept k
    have h2 := g.settled_kept (moveRecord r (g.integrals r.zone).1 (g.integrals r.zone).2 g.clock g.minuteCount (g.settled k).1)
    refine ⟨_, rfl, ?_, ?_, ?_⟩
    · rw [h2.2.2.2.2.2.2.2.2.1, ← h1.2.2.2.2.2.2.2.2.1]
      unfold moveRecord; dsimp only; split <;> rfl
    · rw [h2.1, ← h1.1]
      unfold moveRecord; dsimp only; split <;> rfl
    · rw [h2.2.2.2.2.1]
      rfl

/-- BAKE_REFUSED, when the record it tests is known (R76, R132). -/
theorem State.bakeRefusal_eq {s : State} {n : Nat} {e : Carrier} (b : Bool) (h : s.carrier n = some e) :
    s.bakeRefusal n b =
      if e.mode = .bake ∧ ((s.classValues e.cls).bakeBudget ≤ e.bakeCount ∨ (b = true ∧ e.life = .spent)) then
        s.raise .bakeRefused (.item (.carrier n) (s.labelOf (.carrier n))) none
      else s := by
  simp [State.bakeRefusal, h, State.bakesUsed, State.itemSubject]

/-- A residence change, then BAKE_REFUSED when `b` holds, then one advance of the stamp: the record, the zones and the
alerts. -/
theorem State.moved_spec {g : State} {n : Nat} {c k : Carrier} (r : Residence) (spentToo : Bool) (h : g.carrier n = some k)
    (hs : k.stamp = c.stamp) :
    ∃ d,
      ((if c.zone ≠ r.zone ∨ c.mode ≠ r.mode then (g.changeResidence n r).1.bakeRefusal n spentToo
          else (g.changeResidence n r).1).bumpCarrier n).carrier n = some d ∧
        g.carrierMoved
          ((if c.zone ≠ r.zone ∨ c.mode ≠ r.mode then (g.changeResidence n r).1.bakeRefusal n spentToo
            else (g.changeResidence n r).1).bumpCarrier n) n c r spentToo d := by
  obtain ⟨e, he, hst, hcl, hmo⟩ := State.changeResidence_live r h
  have hc : ∀ b, ((g.changeResidence n r).1.bakeRefusal n b).carrier n = some e := by
    intro b
    rw [State.bakeRefusal_eta]
    exact he
  have heta := g.changeResidence_eta n r
  have hcls : (g.changeResidence n r).1.classValues e.cls = g.classValues e.cls := by rw [heta]; rfl
  have hlab : (g.changeResidence n r).1.labelOf (.carrier n) = g.labelOf (.carrier n) := by rw [heta]; rfl
  let v : State :=
    if c.zone ≠ r.zone ∨ c.mode ≠ r.mode then (g.changeResidence n r).1.bakeRefusal n spentToo
    else (g.changeResidence n r).1
  have hv : v = g.moveAlerts n c r spentToo { e with stamp := nextStamp c.stamp } := by
    unfold State.moveAlerts
    by_cases hcond : c.zone ≠ r.zone ∨ c.mode ≠ r.mode
    · simp only [v, hcond, if_true, true_and]
      rw [State.bakeRefusal_eq _ he, hcls, hlab]
    · simp only [v, hcond, if_false, false_and]
  have hb : ∀ s : State, s.bumpCarrier n = { s with carriers := (s.bumpCarrier n).carriers } := fun s => by
    unfold State.bumpCarrier
    rw [State.modCarrier_eta]
  have hbr : v = { (g.changeResidence n r).1 with alerts := v.alerts, overflow := v.overflow } := by
    simp only [v]
    split
    · rw [State.bakeRefusal_eta]
    · rfl
  refine ⟨{ e with stamp := nextStamp c.stamp }, ?_, ?_, ?_, ?_, ?_, ?_, ?_, ?_, ?_⟩
  · have hite : (if c.zone ≠ r.zone ∨ c.mode ≠ r.mode then (g.changeResidence n r).1.bakeRefusal n spentToo
        else (g.changeResidence n r).1).carrier n = some e := by
      split
      · exact hc _
      · exact he
    rw [State.carrier_bumpCarrier, if_pos rfl, hite, Option.map_some, hst, hs]
  · rw [he]; rfl
  · rw [hb]; exact (congrArg State.zones hbr : v.zones = _)
  · rw [hb]; exact (congrArg State.alerts hv : v.alerts = _)
  · rw [hb]; exact (congrArg State.overflow hv : v.overflow = _)
  · rw [hb]
    change v.capture = g.capture
    rw [hbr, heta]
  · rw [hb]
    change v.moreFaults = g.moreFaults
    rw [hbr, heta]
  · rw [hb]
    change v.watch = g.watch
    rw [hbr, heta]
  · rw [hb]
    change v.claims = g.claims
    rw [hbr, heta]

/-- Moving a carrier (R4, R76, R156). -/
theorem State.moveCarrier_spec {g : State} {n : Nat} {c k : Carrier} (r : Residence) (h : g.carrier n = some k)
    (hz : k.zone = c.zone) (hm : k.mode = c.mode) (hs : k.stamp = c.stamp) :
    ∃ d, (g.moveCarrier n k r).carrier n = some d ∧ g.carrierMoved (g.moveCarrier n k r) n c r false d := by
  have := State.moved_spec r false h hs
  rw [← hz, ← hm] at this
  exact this

/-- A granted item request that passes steps 3 to 7 for a carrier is step 8 of its kind for carriers. -/
theorem serve_carrier {s : State} {l : Link} {i : Instr} {tag : Byte} {label : Label} {stamp n : Nat}
    {f g : Nat → Owner} (hreq : requestOf i = some (l, tag)) (hg : s.grants l i = true)
    (hp : s.passes l label stamp (.carrier n)) :
    serve l i (itemRequest l label stamp f g) s =
      .next ((f n (s.stepEight l i (.carrier n))).1.ends l (kindCode i) tag (f n (s.stepEight l i (.carrier n))).2) := by
  rw [serve_granted hreq hg]
  simp only [itemRequest, State.checkItem_passes hp, runChecked]

/-- The same for a container. -/
theorem serve_container {s : State} {l : Link} {i : Instr} {tag : Byte} {label : Label} {stamp n : Nat}
    {f g : Nat → Owner} (hreq : requestOf i = some (l, tag)) (hg : s.grants l i = true)
    (hp : s.passes l label stamp (.container n)) :
    serve l i (itemRequest l label stamp f g) s =
      .next
        ((g n (s.stepEight l i (.container n))).1.ends l (kindCode i) tag (g n (s.stepEight l i (.container n))).2) := by
  rw [serve_granted hreq hg]
  simp only [itemRequest, State.checkItem_passes hp, runChecked]

@[simp] theorem State.stepEight_carrier (s : State) (l : Link) (i : Instr) (it : Item) (n : Nat) :
    (s.stepEight l i it).carrier n = s.carrier n := by cases l <;> rfl
@[simp] theorem State.stepEight_settled (s : State) (l : Link) (i : Instr) (it : Item) (c : Carrier) :
    (s.stepEight l i it).settled c = s.settled c := by cases l <;> rfl

end Sys2Proof.Machine
end

