-- ==== Sys2Proof/Laws/Links.lean ====
section
/-! SUPPORT. What the receivers, the Frame Engine and an idle step leave alone, and what a grant does to the arbiter. -/

namespace Sys2Proof.Machine

open Sys2Proof

/-! Links -/

theorem LinkState.free_iff (ls : LinkState) : ls.free = true ↔ ls.hand = none ∧ ls.buffer = [] ∧ ls.frame = none := by
  simp [LinkState.free, and_assoc]

/-! Frames (R180, R182) -/

@[simp] theorem State.hunt_fixed (s : State) (l : Link) : (s.hunt l).fixed = s.fixed := s.setLink_fixed l _
@[simp] theorem State.keepFrame_fixed (s : State) (l : Link) (bytes : List Byte) :
    (s.keepFrame l bytes).fixed = s.fixed :=
  s.setLink_fixed l _

@[simp] theorem State.takeFrame_fixed (s : State) (l : Link) : (s.takeFrame l).fixed = s.fixed := by
  unfold State.takeFrame
  dsimp only
  split <;> simp

@[simp] theorem State.bufferFrame_fixed (s : State) (l : Link) (body : List Byte) :
    (s.bufferFrame l body).fixed = s.fixed := by
  unfold State.bufferFrame
  dsimp only
  split <;> simp

@[simp] theorem State.discardFrame_fixed (s : State) (l : Link) : (s.discardFrame l).fixed = s.fixed := by
  simp [State.discardFrame]

@[simp] theorem State.takeByte_fixed (s : State) (l : Link) (b : Byte) : (s.takeByte l b).fixed = s.fixed := by
  unfold State.takeByte
  split
  · split <;> simp
  · split <;> simp

@[simp] theorem State.takeCharacter_fixed (s : State) (l : Link) (c : Character) :
    (s.takeCharacter l c).fixed = s.fixed := by
  unfold State.takeCharacter
  split <;> simp

/-- A byte writes its link, and with a bad frame the capture record and the Alert Queue. -/
theorem State.discardFrame_eta (s : State) (l : Link) :
    s.discardFrame l =
      { s.setLink l { s.link l with badFrame := true } with
        capture := (s.discardFrame l).capture
        moreFaults := (s.discardFrame l).moreFaults
        alerts := (s.discardFrame l).alerts
        overflow := (s.discardFrame l).overflow } := by
  obtain ⟨cap, more, as, o, h⟩ :=
    (s.setLink l { s.link l with badFrame := true }).raiseFault_eta .frameCheck (linkSource l) none none none
  unfold State.discardFrame
  rw [h]

/-- The bytes of a frame after its lead byte, whole, are judged by length and check (R180). -/
theorem judgeFrame_whole (body : List Byte) (check : Half) (h : body.length ≤ Config.bodyMax) (h2 : 2 ≤ body.length) :
    judgeFrame (frameRest body check) = if goodFrameOk body check then .good body else .bad := by
  have hmax : Config.bodyMax = 240 := rfl
  have hn : (BitVec.ofNat 8 body.length).toNat = body.length := by
    rw [BitVec.toNat_ofNat]
    omega
  have hc : (check.extractLsb' 8 8 : Byte) ++ (check.extractLsb' 0 8 : Byte) = check := by
    apply BitVec.eq_of_getLsbD_eq
    intro i hi
    rw [BitVec.getLsbD_append, BitVec.getLsbD_extractLsb', BitVec.getLsbD_extractLsb']
    by_cases h8 : i < 8
    · simp [h8]
    · have : i - 8 < 8 := by omega
      simp [h8, this, show 8 + (i - 8) = i by omega]
  simp only [frameRest, List.cons_append, judgeFrame, hn]
  rw [if_neg (by omega), if_neg (by simp)]
  simp [hc]

/-! Idle steps and grants -/

/-- An idle step leaves the queue alone. -/
@[simp] theorem State.idle_pending (s : State) : s.idle.pending = s.pending := by
  unfold State.idle
  split
  · rw [show s.takeDue.tick.pending = s.takeDue.pending by unfold State.tick; split <;> rfl]
    exact congrArg Fixed.pending s.takeDue_fixed
  · exact congrArg Fixed.pending ((State.takeCharacter_fixed _ _ _).trans (State.takeDue_fixed _))

@[simp] theorem State.grantPort_heldOver (s : State) (l : Link) : (s.grantPort l).heldOver = .none := rfl
@[simp] theorem State.grantStep_heldOver (s : State) : s.grantStep.heldOver = .none := rfl
@[simp] theorem State.grantDrain_heldOver (s : State) : s.grantDrain.heldOver = .none := rfl

theorem State.awards_iff (s : State) (g : Grant) :
    s.awards g = true ↔ s.arbitrate = g ∨ (s.receiving = true ∧ s.heldOver = g) := by
  simp [State.awards]

/-- While nothing is received nobody is granted the store (R142, R193, R196). -/
theorem State.awards_none (s : State) (g : Grant) (h : s.receiving = false) (hg : g ≠ .none) : s.awards g = false := by
  simp [State.awards, State.arbitrate, h, hg.symm]

end Sys2Proof.Machine
end

