-- ==== Sys2Proof/WellFormed.lean ====
section
/-! DEFINITION. Which terms of Instr are commands that can reach the block: a request must be spelled by a frame
(R180, R183, R186), a frame event must be what its name says, and an item number must exist. A well-formed request
may still be refused (BAD_FIELD and the rest): that is its meaning, not a fault of its form. -/

namespace Sys2Proof

/-- A label that a length byte and its bytes can spell (R186). -/
def Label.spellable (l : Label) : Bool := l.length ≤ 255

/-- A trailing field is present only when every field before it is present (R183). -/
def trailingOk {α β : Type} (first : Option α) (second : Option β) : Bool := first.isSome || second.isNone

/-- The length a frame body may have (R180). -/
def bodyLengthOk (n : Nat) : Bool := 2 ≤ n && n ≤ Config.bodyMax

/-- The counts of entries of SETGRID (R186). -/
def GridFields.shaped (g : GridFields) : Bool :=
  g.tempEdges.length = 7 && g.humEdges.length = 7 && g.exposure.length = 64 && g.recovery.length = 8 &&
    g.bake.length = 8

/-- An item number within its table (R1, R88). -/
def Item.inRange : Item → Bool
  | .carrier n => n < Config.carrierSlots
  | .container n => n < Config.containerNumbers

/-- Body bytes a request with these labels and this many further bytes takes, kind and tag included (R186). -/
def bodyBytes (labels : List Label) (rest : Nat) : Nat :=
  2 + (labels.map fun l => 1 + l.length).sum + rest

/-- Bytes of an optional trailing field. -/
def optBytes {w : Nat} (o : Option (BitVec w)) : Nat := if o.isSome then w / 8 else 0

/-- A request on labels can be spelled: every label has a length byte and the body fits its frame. -/
def labelled (labels : List Label) (rest : Nat) : Bool :=
  labels.all Label.spellable && decide (bodyBytes labels rest ≤ Config.bodyMax)

/-- The well-formedness check of a command. -/
def Instr.wellFormed : Instr → Bool
  | .minuteEvent => true
  | .keyEvent _ => true
  | .stalenessExpiry _ => true
  | .doorGraceReached _ => true
  | .drain => true
  | .goodFrame _ body _ => bodyLengthOk body.length
  | .badFrame _ (.length n) => !bodyLengthOk n.toNat
  | .badFrame _ (.check body _) => bodyLengthOk body.length
  | .frameSilence _ received => decide (received.length < Config.bodyMax + 3)
  | .replySent _ => true
  | .status _ _ => true
  | .setClock _ _ _ => true
  | .setUnit _ _ _ => true
  | .erase _ _ => true
  | .quiesceImmediate _ _ => true
  | .quiesceConditional _ _ => true
  | .resume _ _ => true
  | .enrolCarrier _ _ label _ _ _ _ loc => labelled [label] (8 + optBytes loc)
  | .enrolContainer _ _ label _ loc => labelled [label] (8 + optBytes loc)
  | .openItem _ _ label stamp loc => labelled [label] (optBytes stamp + optBytes loc) && trailingOk stamp loc
  | .place _ _ label _ _ => labelled [label] 4
  | .pack _ _ label stamp => labelled [label] (optBytes stamp)
  | .nest _ _ label target stamp => labelled [label, target] (optBytes stamp)
  | .unnest _ _ label stamp => labelled [label] (optBytes stamp)
  | .retire _ _ label stamp => labelled [label] (optBytes stamp)
  | .hold _ _ label _ stamp => labelled [label] (1 + optBytes stamp)
  | .unhold _ _ label stamp => labelled [label] (optBytes stamp)
  | .evacuate _ _ _ _ => true
  | .lookup _ _ label start => labelled [label] (optBytes start)
  | .zoneInfo _ _ _ => true
  | .residents _ _ _ _ => true
  | .batchInfo _ _ _ => true
  | .classInfo _ _ _ => true
  | .setZone _ _ _ => true
  | .setClassDefine _ _ _ _ => true
  | .setClassRevise _ _ _ _ => true
  | .setClassUndefine _ _ _ => true
  | .setGrid _ _ fields => fields.shaped
  | .ambient _ _ _ _ _ => true
  | .claim _ _ label => labelled [label] 0
  | .release _ _ label => labelled [label] 0
  | .watchSet _ _ _ _ _ _ => true
  | .watchArm _ _ => true
  | .watchDisarm _ _ => true
  | .capRead _ _ => true
  | .capClear _ _ => true
  | .alerts _ _ _ => true
  | .moveCarrierStep => true
  | .moveFinalStep => true
  | .packUnpackCarrierStep => true
  | .packUnpackFinalStep => true
  | .reparentCarrierStep => true
  | .reparentFinalStep => true
  | .classRevisionStep => true
  | .doorOpening _ => true
  | .doorClosing _ => true
  | .claimSecond => true
  | .claimLapsed item => item.inRange
  | .powerFailWarning => true
  | .retainEntry _ => true
  | .mainPowerLoss _ => true
  | .backupLoss => true
  | .warmStart _ => true
  | .coldStart _ => true
  | .resetAsserted => true
  | .resetReleased _ => true

end Sys2Proof
end

