-- ==== Sys2Proof/Laws/PerInstr.lean ====
section
/-! SUPPORT. Family `Labels`: what a well-formed command carries as labels can stand in one frame (R180, R186). -/

namespace Sys2Proof

/-- The labels a command carries, in the order of its layout (R186). -/
def Instr.labels : Instr → List Label
  | .enrolCarrier _ _ label _ _ _ _ _ => [label]
  | .enrolContainer _ _ label _ _ => [label]
  | .openItem _ _ label _ _ => [label]
  | .place _ _ label _ _ => [label]
  | .pack _ _ label _ => [label]
  | .nest _ _ label target _ => [label, target]
  | .unnest _ _ label _ => [label]
  | .retire _ _ label _ => [label]
  | .hold _ _ label _ _ => [label]
  | .unhold _ _ label _ => [label]
  | .lookup _ _ label _ => [label]
  | .claim _ _ label => [label]
  | .release _ _ label => [label]
  | _ => []

end Sys2Proof

namespace Sys2Proof.Laws.Labels

/-- A well-formed command's labels have length bytes and fit one frame body together. -/
def Statement (c : Instr) : Prop :=
  c.wellFormed = true →
    (c.labels.all Label.spellable) = true ∧ bodyBytes c.labels 0 ≤ Config.bodyMax

/-- A check on labels with further bytes gives the statement for those labels. -/
theorem of_labelled {labels : List Label} {rest : Nat} (h : labelled labels rest = true) :
    labels.all Label.spellable = true ∧ bodyBytes labels 0 ≤ Config.bodyMax := by
  rw [labelled, Bool.and_eq_true] at h
  exact ⟨h.1, Nat.le_trans (by simp only [bodyBytes]; omega) (of_decide_eq_true h.2)⟩

/-- A command without labels has nothing to check. -/
theorem of_none {c : Instr} (h : c.labels = []) : Statement c := by
  intro _
  rw [h]
  decide

theorem minuteEvent : Statement .minuteEvent :=
  of_none rfl

theorem keyEvent (zone : Fin 64) : Statement (.keyEvent zone) :=
  of_none rfl

theorem stalenessExpiry (zone : Fin 64) : Statement (.stalenessExpiry zone) :=
  of_none rfl

theorem doorGraceReached (zone : Fin 64) : Statement (.doorGraceReached zone) :=
  of_none rfl

theorem drain : Statement .drain :=
  of_none rfl

theorem goodFrame (link : Link) (body : List Byte) (check : Half) : Statement (.goodFrame link body check) :=
  of_none rfl

theorem badFrame (link : Link) (cause : BadCause) : Statement (.badFrame link cause) :=
  of_none rfl

theorem frameSilence (link : Link) (received : List Byte) : Statement (.frameSilence link received) :=
  of_none rfl

theorem replySent (link : Link) : Statement (.replySent link) :=
  of_none rfl

theorem status (link : Link) (tag : Byte) : Statement (.status link tag) :=
  of_none rfl

theorem setClock (link : Link) (tag : Byte) (clock : Word) : Statement (.setClock link tag clock) :=
  of_none rfl

theorem setUnit (link : Link) (tag : Byte) (fields : UnitFields) : Statement (.setUnit link tag fields) :=
  of_none rfl

theorem erase (link : Link) (tag : Byte) : Statement (.erase link tag) :=
  of_none rfl

theorem quiesceImmediate (link : Link) (tag : Byte) : Statement (.quiesceImmediate link tag) :=
  of_none rfl

theorem quiesceConditional (link : Link) (tag : Byte) : Statement (.quiesceConditional link tag) :=
  of_none rfl

theorem resume (link : Link) (tag : Byte) : Statement (.resume link tag) :=
  of_none rfl

theorem enrolCarrier (link : Link) (tag : Byte) (label : Label) (cls : Byte) (minutes : Word) (packed : Byte)
    (bakeCount : Byte) (loc : Option Half) :
    Statement (.enrolCarrier link tag label cls minutes packed bakeCount loc) :=
  fun h => of_labelled h

theorem enrolContainer (link : Link) (tag : Byte) (label : Label) (packed : Byte) (loc : Option Half) :
    Statement (.enrolContainer link tag label packed loc) :=
  fun h => of_labelled h

theorem openItem (link : Link) (tag : Byte) (label : Label) (stamp : Option Half) (loc : Option Half) :
    Statement (.openItem link tag label stamp loc) := by
  intro h
  have h2 := h
  simp only [Instr.wellFormed, Bool.and_eq_true] at h2
  exact of_labelled h2.1

theorem place (link : Link) (tag : Byte) (label : Label) (stamp : Half) (loc : Half) :
    Statement (.place link tag label stamp loc) :=
  fun h => of_labelled h

theorem pack (link : Link) (tag : Byte) (label : Label) (stamp : Option Half) :
    Statement (.pack link tag label stamp) :=
  fun h => of_labelled h

theorem nest (link : Link) (tag : Byte) (label : Label) (target : Label) (stamp : Option Half) :
    Statement (.nest link tag label target stamp) :=
  fun h => of_labelled h

theorem unnest (link : Link) (tag : Byte) (label : Label) (stamp : Option Half) :
    Statement (.unnest link tag label stamp) :=
  fun h => of_labelled h

theorem retire (link : Link) (tag : Byte) (label : Label) (stamp : Option Half) :
    Statement (.retire link tag label stamp) :=
  fun h => of_labelled h

theorem hold (link : Link) (tag : Byte) (label : Label) (reason : Byte) (stamp : Option Half) :
    Statement (.hold link tag label reason stamp) :=
  fun h => of_labelled h

theorem unhold (link : Link) (tag : Byte) (label : Label) (stamp : Option Half) :
    Statement (.unhold link tag label stamp) :=
  fun h => of_labelled h

theorem evacuate (link : Link) (tag : Byte) (zone : Byte) (loc : Half) : Statement (.evacuate link tag zone loc) :=
  of_none rfl

theorem lookup (link : Link) (tag : Byte) (label : Label) (start : Option Byte) :
    Statement (.lookup link tag label start) :=
  fun h => of_labelled h

theorem zoneInfo (link : Link) (tag : Byte) (zone : Byte) : Statement (.zoneInfo link tag zone) :=
  of_none rfl

theorem residents (link : Link) (tag : Byte) (zone : Byte) (start : Half) :
    Statement (.residents link tag zone start) :=
  of_none rfl

theorem batchInfo (link : Link) (tag : Byte) (start : Option Byte) : Statement (.batchInfo link tag start) :=
  of_none rfl

theorem classInfo (link : Link) (tag : Byte) (cls : Byte) : Statement (.classInfo link tag cls) :=
  of_none rfl

theorem setZone (link : Link) (tag : Byte) (fields : ZoneFields) : Statement (.setZone link tag fields) :=
  of_none rfl

theorem setClassDefine (link : Link) (tag : Byte) (cls : Byte) (values : ClassFields) :
    Statement (.setClassDefine link tag cls values) :=
  of_none rfl

theorem setClassRevise (link : Link) (tag : Byte) (cls : Byte) (values : ClassFields) :
    Statement (.setClassRevise link tag cls values) :=
  of_none rfl

theorem setClassUndefine (link : Link) (tag : Byte) (cls : Byte) : Statement (.setClassUndefine link tag cls) :=
  of_none rfl

theorem setGrid (link : Link) (tag : Byte) (fields : GridFields) : Statement (.setGrid link tag fields) :=
  of_none rfl

theorem ambient (link : Link) (tag : Byte) (zone : Byte) (temp : Half) (hum : Half) :
    Statement (.ambient link tag zone temp hum) :=
  of_none rfl

theorem claim (link : Link) (tag : Byte) (label : Label) : Statement (.claim link tag label) :=
  fun h => of_labelled h

theorem release (link : Link) (tag : Byte) (label : Label) : Statement (.release link tag label) :=
  fun h => of_labelled h

theorem watchSet (link : Link) (tag : Byte) (base : Half) (k : Byte) (mask : Byte) (block : Option Byte) :
    Statement (.watchSet link tag base k mask block) :=
  of_none rfl

theorem watchArm (link : Link) (tag : Byte) : Statement (.watchArm link tag) :=
  of_none rfl

theorem watchDisarm (link : Link) (tag : Byte) : Statement (.watchDisarm link tag) :=
  of_none rfl

theorem capRead (link : Link) (tag : Byte) : Statement (.capRead link tag) :=
  of_none rfl

theorem capClear (link : Link) (tag : Byte) : Statement (.capClear link tag) :=
  of_none rfl

theorem alerts (link : Link) (tag : Byte) (maximum : Option Byte) : Statement (.alerts link tag maximum) :=
  of_none rfl

theorem moveCarrierStep : Statement .moveCarrierStep :=
  of_none rfl

theorem moveFinalStep : Statement .moveFinalStep :=
  of_none rfl

theorem packUnpackCarrierStep : Statement .packUnpackCarrierStep :=
  of_none rfl

theorem packUnpackFinalStep : Statement .packUnpackFinalStep :=
  of_none rfl

theorem reparentCarrierStep : Statement .reparentCarrierStep :=
  of_none rfl

theorem reparentFinalStep : Statement .reparentFinalStep :=
  of_none rfl

theorem classRevisionStep : Statement .classRevisionStep :=
  of_none rfl

theorem doorOpening (line : Fin 8) : Statement (.doorOpening line) :=
  of_none rfl

theorem doorClosing (line : Fin 8) : Statement (.doorClosing line) :=
  of_none rfl

theorem claimSecond : Statement .claimSecond :=
  of_none rfl

theorem claimLapsed (item : Item) : Statement (.claimLapsed item) :=
  of_none rfl

theorem powerFailWarning : Statement .powerFailWarning :=
  of_none rfl

theorem retainEntry (vback : Bool) : Statement (.retainEntry vback) :=
  of_none rfl

theorem mainPowerLoss (vback : Bool) : Statement (.mainPowerLoss vback) :=
  of_none rfl

theorem backupLoss : Statement .backupLoss :=
  of_none rfl

theorem warmStart (pins : StartPins) : Statement (.warmStart pins) :=
  of_none rfl

theorem coldStart (pins : StartPins) : Statement (.coldStart pins) :=
  of_none rfl

theorem resetAsserted : Statement .resetAsserted :=
  of_none rfl

theorem resetReleased (pins : StartPins) : Statement (.resetReleased pins) :=
  of_none rfl

end Sys2Proof.Laws.Labels
end

