-- ==== Sys2Proof/Tests/Slice0.lean ====
section
/-! SUPPORT. Tests: the well-formedness check refuses ill-formed commands, worked values of the spec, and for every
statement with hypotheses a concrete case that meets them. -/

set_option maxRecDepth 20000

namespace Sys2Proof.Tests

open Sys2Proof Sys2Proof.Machine

/-! A small plant -/

/-- The label of a carrier: REL and a digit. -/
def reel (n : Nat) : Label := [0x52, 0x45, 0x4C, BitVec.ofNat 8 (0x30 + n)]

/-- The label of a container: BOX and a digit. -/
def box (n : Nat) : Label := [0x42, 0x4F, 0x58, BitVec.ofNat 8 (0x30 + n)]

/-- An active zone with a window, still stale. -/
def zoneOf (kind : ZoneKind) (base k : Nat) (gated : Bool) : Zone :=
  { Zone.cold with
    cfg := { Zone.cold.cfg with active := true, kind := kind, base := base, k := k, gated := gated }
    stale := true
    mode := .degraded
    eRate := 255 }

/-- The same zone with a reading, not stale, at given rates. -/
def freshZone (z : Zone) (e p : Nat) : Zone :=
  { z with
    stale := false, mode := .normal, countdown := 10, eRate := e, pRate := p, reading := some { temp := 230, hum := 40 } }

/-- The values of the class of 1.7. -/
def classFive : ClassValues := { limit := 7680, warn := 12, ceiling := 6400, bakeRequirement := 1920, bakeBudget := 2 }

/-- A FRESH carrier of class 1 under a parent. -/
def carrierOf (parent : Option Parent) (zone : Option Nat) (mode : ResMode) (packed : Bool) : Carrier :=
  newCarrier 1 0 packed 0 parent zone mode 0 0 none 0

/-- A container under a parent. -/
def boxOf (packed : Bool) (parent : Parent) (members : List Item) (subtree depth : Nat) : Container :=
  { packed := packed, parent := some parent, zone := some 0, members := members, subtree := subtree, depth := depth,
    inTransit := false, stamp := 1 }

/-- Floor zone 0, dry zone 1, oven zone 2 and a gated floor zone 3; five carriers and five containers. -/
def plant : State :=
  { State.reset with
    zones := [zoneOf .floor 0 8 false, zoneOf .dry 256 8 false, zoneOf .oven 512 8 false, zoneOf .floor 768 8 true]
    classes := [ClassRec.cold, { values := some classFive, inUse := 5, revisions := 0 }]
    carriers :=
      [(0, carrierOf (some (.place 0 5)) (some 0) .accrue false), (1, carrierOf none none .still true),
       (2, carrierOf (some (.place 1 256)) (some 1) .still true),
       (3, carrierOf (some (.container 1)) (some 0) .accrue false),
       (4, carrierOf (some (.container 4)) (some 0) .still false)]
    containers :=
      [(0, boxOf false (.place 0 7) [] 0 1), (1, boxOf false (.place 0 8) [.carrier 3] 1 1),
       (2, boxOf true (.place 0 9) [.container 3, .container 4] 1 1), (3, boxOf false (.container 2) [] 0 2),
       (4, boxOf false (.container 2) [.carrier 4] 1 2)]
    directory :=
      [(reel 0, .carrier 0), (reel 1, .carrier 1), (reel 2, .carrier 2), (reel 3, .carrier 3), (reel 4, .carrier 4),
       (box 0, .container 0), (box 1, .container 1), (box 2, .container 2), (box 3, .container 3),
       (box 4, .container 4)] }

/-- A batch record over the plant. -/
def batchOf (job : BatchJob) (walk carriers containers : List Nat) : Batch :=
  { number := 1, job := job, link := .host, total := walk.length + 1, done := 0, leftBehind := 0, walk := walk,
    carriers := carriers, containers := containers }

/-- The plant with one batch queued. -/
def running (b : Batch) : State := { plant with batches := [b] }

/-- The plant QUIESCED. -/
def quiescedPlant : State := { plant with quiesce := .quiesced }

/-- The plant with a full batch queue that does not run. -/
def fullPlant (q : Quiesce) : State :=
  { plant with batches := List.replicate 8 (batchOf (.revision 1) [] [] []), quiesce := q }

/-- The zone an entry admits to. -/
def admittedTo : Entry → Option Nat
  | .refused _ _ _ => none
  | .admitted _ z => some z

theorem admitted_of {e : Entry} {z : Nat} (h : admittedTo e = some z) : ∃ g, e = .admitted g z := by
  cases e with
  | refused _ _ _ => simp [admittedTo] at h
  | admitted g y =>
    simp only [admittedTo, Option.some.injEq] at h
    exact ⟨g, by rw [h]⟩

/-! WellFormed refuses an ill-formed term of each check -/

theorem test_wf_goodFrame_short : (Instr.goodFrame .host [0x01] 0).wellFormed = false := by decide
theorem test_wf_goodFrame_long : (Instr.goodFrame .host (List.replicate 241 0) 0).wellFormed = false := by decide
theorem test_wf_badFrame_length : (Instr.badFrame .host (.length 2)).wellFormed = false := by decide
theorem test_wf_badFrame_check : (Instr.badFrame .host (.check [] 0)).wellFormed = false := by decide
theorem test_wf_frameSilence : (Instr.frameSilence .host (List.replicate 243 0)).wellFormed = false := by decide
theorem test_wf_label : (Instr.claim .host 1 (List.replicate 256 0x41)).wellFormed = false := by decide
theorem test_wf_two_labels :
    (Instr.nest .host 1 (List.replicate 120 0x41) (List.replicate 120 0x41) none).wellFormed = false := by decide
theorem test_wf_enrol :
    (Instr.enrolCarrier .host 1 (List.replicate 228 0x41) 0 0 0 0 (some 0)).wellFormed = false := by decide
theorem test_wf_trailing : (Instr.openItem .host 1 (reel 0) none (some 5)).wellFormed = false := by decide
theorem test_wf_grid :
    (Instr.setGrid .host 1 { tempEdges := [], humEdges := [], exposure := [], recovery := [], bake := [] }).wellFormed =
      false := by decide
theorem test_wf_claimLapsed : (Instr.claimLapsed (.container 512)).wellFormed = false := by decide
theorem test_wf_accepts :
    (Instr.enrolCarrier .host 1 (reel 0) 0 0 0 0 (some 0)).wellFormed = true ∧
      (Instr.openItem .host 1 (reel 0) (some 1) (some 5)).wellFormed = true ∧
      (Instr.claimLapsed (.carrier 4095)).wellFormed = true ∧ (Instr.badFrame .host (.length 241)).wellFormed = true := by
  decide

/-! Worked values of the spec -/

/-- The check of R181 on its worked string. -/
theorem test_crc : crc [0x31, 0x32, 0x33, 0x34, 0x35, 0x36, 0x37, 0x38, 0x39] = 0x29B1 := by decide

/-- No row of the table gives bits, so no word spells a command. -/
theorem test_noWord : decodeTableWord 8 1 = none := rfl

/-- A cold start leaves the reset state. -/
theorem test_reset_coldStart :
    exec (.coldStart { hostStraps := 0, floorStraps := 0, doors := 0 }) State.unpowered = .next State.reset := rfl

/-- 1.7 at minute count 1184: 5776 credits make the reel WARNED and file its next key at 506,080. -/
theorem test_settle_warned :
    let c := { carrierOf (some (.place 3 272)) (some 3) .accrue false with base := 1600, aE := 500000, carried := 1600 }
    let t := (settleRecord classFive 504176 0 none 1184 c).1
    t.base = 5776 ∧ t.life = .warned ∧ t.eKey = some 506080 ∧ t.pKey = none ∧ t.openSeg.credits = 4176 := by decide

/-- 1.7 at minute count 1990: recovery and door minutes together, 6160 + 400 - 6160 credits. -/
theorem test_settle_recovering :
    let c :=
      { carrierOf (some (.place 9 517)) (some 9) .rest false with
        base := 6160, aE := 200000, aP := 80000, life := .warned, eligible := true }
    let t := (settleRecord classFive 200400 86160 none 1990 c).1
    t.base = 400 ∧ t.life = .warned ∧ t.eKey = some 207680 ∧ t.pKey = some 86560 := by decide

/-- 1.7 at minute count 2160: the bake completes, and a further bake is keyed. -/
theorem test_settle_bake :
    let c :=
      { carrierOf (some (.place 12 773)) (some 12) .bake false with
        aE := 900000, aP := 40000, life := .warned, carried := 1600 }
    let r := settleRecord classFive 900000 41920 none 2160 c
    r.1.life = .fresh ∧ r.1.bakeCount = 1 ∧ r.1.carried = 0 ∧ r.1.eKey = some 905760 ∧ r.1.pKey = some 43840 ∧
      r.2 = [.bakeDone] := by decide

/-- The example of 4.3: the smallest window wins, and the lower number on a tie. -/
theorem test_mapLoc :
    let s :=
      { plant with
        zones := [zoneOf .floor 0 16 false, zoneOf .floor 0x1000 12 false, zoneOf .floor 0x1200 8 false,
          zoneOf .floor 0x1200 8 false] }
    s.mapLoc 0x1234 = some 2 ∧ s.mapLoc 0x1300 = some 1 ∧ s.mapLoc 0x0FFF = some 0 := by decide

/-- The bands of R61. -/
theorem test_bands :
    bandOf Config.defaultTempEdges 225 = 2 ∧ bandOf Config.defaultTempEdges 250 = 3 ∧
      bandOf Config.defaultTempEdges 1250 = 7 ∧ bandOf Config.defaultHumEdges 95 = 0 ∧
      bandOf Config.defaultHumEdges 450 = 4 := by decide

/-- A change stamp wraps from 65535 to 1. -/
theorem test_stamp_wraps : nextStamp 65535 = 1 ∧ nextStamp 1 = 2 := by decide

/-- A PLACE of a packed reel is answered DONE with stamp 2, FRESH, zone 0, STILL. -/
theorem test_place_reply :
    (exec (.place .floor 9 (reel 2) 1 6) plant |> fun r => match r with
      | .next t => t.floorLink.hand
      | _ => none) = some (.replying [0x92, 9, 0x00, 0, 2, 0, 0, 0]) := by decide

/-! Cases that meet the statements' hypotheses, in the statements' order -/

/-- EveryCommandCompletes: a request and the state it gives. -/
theorem test_case_requestKeepsFixed :
    requestOf (.status .floor 1) ≠ none ∧ ∃ t, exec (.status .floor 1) plant = .next t := ⟨by decide, _, rfl⟩

/-- IdleStepAndLamps: running and not, an empty queue with no character and with one, in the wind-down too; a zone that
names line 7 and shows a pattern, and each row of the table of patterns. -/
theorem test_case_idle :
    let z := { Zone.cold with cfg := { Zone.cold.cfg with active := true, indicatorLine := some 7 } }
    let s := { plant with zones := [z] }
    let heard (t : State) := { t with line := [(Link.host, ({ data := 0x5A, stop := false } : Character))] }
    let lit (m : ZoneMode) (w e : Nat) :=
      { z with mode := m, counts := { fresh := 1, warned := w, expired := e, spent := 0 } }
    (State.reset.pending = [] ∧ State.reset.line = [] ∧ State.reset.calm = true ∧ State.unpowered.pending = [] ∧
      State.unpowered.line = [] ∧ State.unpowered.running = false) ∧
      ((heard plant).line = (.host, { data := 0x5A, stop := false }) :: [] ∧ (heard plant).ready = true ∧
        (heard State.unpowered).running = false ∧ (heard { plant with windDown := true }).calm = true) ∧
      (s.running = true ∧ z ∈ s.zones ∧ z.cfg.indicatorLine = some 7 ∧ s.linePattern 7 ≠ .off) ∧
      (Zone.cold.pattern = .off ∧ (lit .degraded 1 1).pattern = .fast ∧ (lit .degraded 1 0).pattern = .pulse ∧
        (lit .normal 1 0).pattern = .slow ∧ (lit .normal 0 0).pattern = .steady) := by decide

/-- ColdStartValues: from OFF, and from RETAIN without the check word. -/
theorem test_case_coldStart :
    State.unpowered.power = .off ∧
      ({ plant with power := .retain, checkWord := false } : State).power = .retain ∧
      ({ plant with power := .retain, checkWord := false } : State).checkWord = false := by decide

/-- PowerFailWarning: in RUN with nothing due, and during the wind-down. -/
theorem test_case_powerFail :
    plant.power = .run ∧ plant.windDown = false ∧ (plant.running = true → plant.quiet = true) ∧
      ({ plant with windDown := true } : State).windDown = true := by decide

/-- PowerIsLost: wound down, unannounced, and from RETAIN. -/
theorem test_case_powerIsLost :
    let w := { plant with windDown := true }
    (w.power = .run ∧ w.windDown = true ∧ w.hostLink.hand = none ∧ w.floorLink.hand = none ∧
      (w.running = true → w.quiet = true)) ∧
      (plant.power = .run ∧ plant.windDown = false ∧ (plant.running = true → plant.quiet = true)) ∧
      ({ plant with power := .retain } : State).power = .retain := by decide

/-- OutageIsCharged: a warm start and a release, with no minute missed and with the most. -/
theorem test_case_outage :
    let r := { plant with power := .retain, missed := 4294967295 }
    let q := { plant with resetAsserted := true }
    (r.power = .retain ∧ r.checkWord = true ∧ r.missed = 4294967295) ∧
      (q.power = .run ∧ q.resetAsserted = true ∧ q.windDown = false ∧ q.missed = 0) := by decide

/-- ResetIsAsserted: ready, in the wind-down, and asserted. -/
theorem test_case_resetAsserted :
    plant.ready = true ∧
      (({ plant with windDown := true } : State).power = .run ∧ ({ plant with windDown := true } : State).windDown = true ∧
        ({ plant with windDown := true } : State).quiet = true) ∧
      ({ plant with resetAsserted := true } : State).resetAsserted = true := by decide

/-- DirectoryAcrossStarts: a cold start, a warm start, and an ERASE that is accepted. -/
theorem test_case_directory :
    State.unpowered.startsCold = true ∧
      (({ plant with power := .retain } : State).power = .retain ∧
        ({ plant with power := .retain } : State).checkWord = true) ∧
      (quiescedPlant.grants .host (.erase .host 1) = true ∧ quiescedPlant.quiesce = .quiesced ∧
        quiescedPlant.batches = []) := by decide

/-- MinuteEvents: calm in RUN, in RETAIN, and under RESETn. -/
theorem test_case_minute :
    plant.calm = true ∧ ({ plant with power := .retain } : State).power = .retain ∧
      (({ plant with resetAsserted := true } : State).power = .run ∧
        ({ plant with resetAsserted := true } : State).resetAsserted = true) := by decide

/-- CountersReachTheirEnds: an expiry of zone 0, and of zone 63 a door at its grace. -/
theorem test_case_counters :
    let a := { freshZone (zoneOf .floor 0 8 false) 24 0 with countdown := 0 }
    let s := { plant with zones := [a] }
    let b :=
      { freshZone (zoneOf .dry 0 8 false) 0 8 with
        cfg := { Zone.cold.cfg with active := true, kind := .dry, doorGrace := 2 }
        doorOpen := true
        openMinutes := 2 }
    let u := { plant with zones := List.replicate 63 Zone.cold ++ [b] }
    (s.running = true ∧ a = s.zone 0 ∧ a.cfg.active = true ∧ a.stale = false ∧ a.countdown = 0) ∧
      (u.running = true ∧ b = u.zone 63 ∧ b.cfg.active = true ∧ b.doorOpen = true ∧ b.doorDegraded = false ∧
        b.cfg.doorGrace ≤ b.openMinutes) := by decide

/-- ClaimSecondsAndLapse: a claim that has run out. -/
theorem test_case_lapse :
    let c : Claim := { item := .carrier 0, link := .floor, seconds := 0 }
    let s := { plant with claims := [c] }
    plant.calm = true ∧ s.running = true ∧ s.claimOf (.carrier 0) = some c ∧ c.seconds = 0 := by decide

/-- DrainTakesDueHead: the E head of zone 63 at its key, and the P head of zone 0 at its key. -/
theorem test_case_drain :
    let a := { zoneOf .floor 0 8 false with eList := [{ slot := 0, key := 9 }], e := 9 }
    let s := { plant with zones := List.replicate 63 Zone.cold ++ [a] }
    let b := { zoneOf .dry 0 8 false with pList := [{ slot := 0, key := 9 }], p := 9 }
    let u := { plant with zones := [b] }
    (s.ready = true ∧ 63 < 64 ∧ (∀ m < 63, (s.zone m).due = false) ∧ (s.zone 63).eList = [{ slot := 0, key := 9 }] ∧
      9 ≤ (s.zone 63).e) ∧
      (u.ready = true ∧ (∀ m < 0, (u.zone m).due = false) ∧ (u.zone 0).eDue = false ∧
        (u.zone 0).pList = [{ slot := 0, key := 9 }] ∧ 9 ≤ (u.zone 0).p) := by decide

/-- SettleCharges: a live carrier. -/
theorem test_case_settle : plant.carrier 0 = some (carrierOf (some (.place 0 5)) (some 0) .accrue false) := by decide

/-- BakeCompletion: a bake that completes at exactly its requirement, and one that is a credit short. -/
theorem test_case_bake :
    let c := { carrierOf (some (.place 2 512)) (some 2) .bake false with life := .warned, aP := 40000 }
    let k := charge 0 41920 c
    let d := charge 0 41919 c
    (c.mode = .bake ∧ c.life ≠ .spent ∧ c.bakeCount < classFive.bakeBudget ∧ classFive.bakeRequirement ≤ k.progress) ∧
      (classFive.limited = false ∨ 0 < classFive.warnLevel) ∧
      ¬(c.mode = .bake ∧ c.life ≠ .spent ∧ c.bakeCount < classFive.bakeBudget ∧
        classFive.bakeRequirement ≤ d.progress) ∧
      ({ plant with carriers := [(4095, c)] } : State).carrier 4095 = some c := by decide

/-- ThresholdTable: each row at its boundary, for L = 7680 and W = 5760 and a budget of 2. -/
theorem test_case_thresholds :
    let v := classFive
    ({ v with limit := 0 } : ClassValues).limit = 0 ∧
      (v.limit ≠ 0 ∧ v.limit ≤ 7680 ∧ 1 < v.bakeBudget) ∧ v.bakeBudget ≤ 2 ∧
      (7679 < v.limit ∧ v.warnLevel ≤ 5760) ∧ (5759 < v.limit ∧ 5759 < v.warnLevel) := by decide

/-- SettleKeys: a settle that files a key of each list, and a class with a bake to ask for. -/
theorem test_case_keys :
    let c := { carrierOf (some (.place 1 256)) (some 1) .rest false with base := 100, eligible := true }
    let t := (settleRecord classFive 0 0 none 0 c).1
    t.eKey = some 5660 ∧ t.pKey = some 100 ∧ 0 < classFive.bakeRequirement := by decide

/-- LifeNeverReturns: an EXPIRED carrier that a bake makes FRESH, a WARNED one likewise, a SPENT one. -/
theorem test_case_life :
    let c := { carrierOf (some (.place 2 512)) (some 2) .bake false with life := .expired, progress := 1920 }
    let t := (settleRecord classFive 0 0 none 0 c).1
    let w := (settleRecord classFive 0 0 none 0 { c with life := .warned }).1
    (c.life = .expired ∧ t.life = .fresh) ∧ w.life = .fresh ∧
      (settleRecord classFive 0 0 none 0 { c with life := .spent }).1.life = .spent := by decide

/-- SettleFrame: another slot, a zone that is not the carrier's and one that is, a free slot. -/
theorem test_case_settleFrame :
    let c := carrierOf (some (.place 0 5)) (some 0) .accrue false
    plant.carrier 0 = some c ∧ c.zone ≠ some 1 ∧ c.zone = some 0 ∧ 0 < plant.zones.length ∧
      plant.carrier 4095 = none ∧ (1 : Nat) ≠ 0 := by decide

/-- ResidenceChange: a carrier moved to another zone, within its zone, and into an oven; segments at the limit. -/
theorem test_case_residence :
    let c := carrierOf (some (.place 0 5)) (some 0) .accrue false
    let k := (plant.settled c).1
    let seg : ClosedSeg := { zone := none, mode := .still, stamp := none, minutes := 0, credits := 0 }
    let there : Residence := { parent := some (.place 1 256), packed := false, zone := some 1, mode := .rest }
    let here : Residence := { parent := some (.place 0 6), packed := false, zone := some 0, mode := .accrue }
    let oven : Residence := { parent := some (.place 2 512), packed := false, zone := some 2, mode := .bake }
    plant.carrier 0 = some c ∧ k.base ≤ 4294967295 ∧ k.progress ≤ 4294967295 ∧
      (c.zone ≠ there.zone ∧ there.mode ≠ .bake ∧ 1 < plant.zones.length) ∧
      (c.parent ≠ here.parent ∧ c.zone = here.zone ∧ c.mode = here.mode ∧ here.mode ≠ .bake) ∧
      (c.mode ≠ oven.mode ∧ oven.mode = .bake ∧
        (((plant.changeResidence 0 oven).1.carrier 0).map (·.bakeCount)) = some k.bakeCount) ∧
      (List.replicate 6 seg).length ≤ 6 ∧ (List.replicate 6 seg).length = 6 := by decide

/-- ResidenceChange: a bake that the second settle completes. -/
theorem test_case_residence_bake :
    let s := plant.modCarrier 0 fun c => { c with progress := 1920 }
    let oven : Residence := { parent := some (.place 2 512), packed := false, zone := some 2, mode := .bake }
    (s.carrier 0).map (fun c => (s.settled c).1.bakeCount) = some 0 ∧
      ((s.changeResidence 0 oven).1.carrier 0).map (·.bakeCount) = some 1 := by decide

/-- ZoneRatesTable: an inactive zone, a stale one, and each kind with a reading, NORMAL and door-degraded. -/
theorem test_case_rates :
    let r : Reading := { temp := 230, hum := 40 }
    let g := plant.grid
    let f := freshZone (zoneOf .floor 0 8 false) 0 0
    let d := freshZone (zoneOf .dry 0 8 false) 0 0
    let o := freshZone (zoneOf .oven 0 8 false) 0 0
    Zone.cold.cfg.active = false ∧ ((zoneOf .dry 0 8 false).cfg.active = true ∧ (zoneOf .dry 0 8 false).stale = true) ∧
      (f.cfg.active = true ∧ f.stale = false ∧ f.reading = some r ∧ f.cfg.kind = .floor) ∧
      (d.cfg.kind = .dry ∧ d.doorDegraded = false ∧ { d with doorDegraded := true }.doorDegraded = true) ∧
      (o.cfg.kind = .oven ∧ o.doorDegraded = false) ∧
      2 = (g.tempEdges.filter fun x => decide (x ≤ r.temp)).length ∧
      0 = (g.humEdges.filter fun x => decide (x ≤ r.hum)).length ∧
      (plant.recompute (zoneOf .oven 0 8 false)).mode = .degraded := by decide

/-- The fields of a SETGRID at the ends of their ranges. -/
def gridFields : GridFields :=
  { tempEdges := [0xFE70, 0, 1, 2, 3, 4, 2500], humEdges := [0, 1, 2, 3, 4, 5, 1000], exposure := List.replicate 64 255
    recovery := List.replicate 8 8, bake := List.replicate 8 32 }

/-- GridIsSet: ACTIVE, and not. -/
theorem test_case_grid :
    (plant.takes .host (.setGrid .host 1 gridFields) = true ∧ plant.quiesce = .active) ∧
      (quiescedPlant.takes .host (.setGrid .host 1 gridFields) = true ∧ quiescedPlant.quiesce ≠ .active) := by decide

/-- ReadingIsTaken: the ends of both ranges, a value past each end, zone 64, and an inactive zone. -/
theorem test_case_reading :
    (plant.takes .floor (.ambient .floor 1 0 0xFE70 1000) = true ∧ (0 : Byte).toNat < 64 ∧
      (plant.zone 0).cfg.active = true ∧ -400 ≤ (0xFE70 : Half).toInt ∧ (0xFE70 : Half).toInt ≤ 2500 ∧
      (1000 : Half).toNat ≤ 1000) ∧
      (plant.takes .host (.ambient .host 1 64 0 0) = true ∧ 64 ≤ (64 : Byte).toNat) ∧
      (plant.takes .host (.ambient .host 1 63 0 0) = true ∧ (63 : Byte).toNat < 64 ∧
        (plant.zone 63).cfg.active = false) ∧
      (plant.takes .host (.ambient .host 1 0 0xFE6F 0) = true ∧ (0xFE6F : Half).toInt < -400) ∧
      2500 < (2501 : Half).toInt ∧ 1000 < (1001 : Half).toNat := by decide

/-- DoorsAreFollowed: line 7 closed and open, a zone that follows it with grace 0 and one that does not follow it. -/
theorem test_case_doors :
    let z := { zoneOf .floor 0 8 false with cfg := { Zone.cold.cfg with active := true, doorLine := some 7, doorGrace := 0 } }
    let s := { plant with zones := [z, zoneOf .dry 256 8 false] }
    let u := { s with doorLevel := 0x80 }
    (s.calm = true ∧ s.lineOpen 7 = false ∧ z = s.zone 0 ∧ z.cfg.active = true ∧ z.cfg.doorLine = some 7 ∧
      z.cfg.doorGrace = 0) ∧
      (s.zone 1).cfg.doorLine ≠ some 7 ∧ (s.zone 63).cfg.active = false ∧
      (u.calm = true ∧ u.lineOpen 7 = true) ∧
      (zoneOf .dry 0 8 false).mode = .degraded ∧ (freshZone (zoneOf .dry 0 8 false) 0 8).mode = .normal := by decide

/-- The fields of a SETZONE of a zone, one window, a door line. -/
def zoneFields (zone active kind doorLine grace : Byte) : ZoneFields :=
  { zone := zone, active := active, kind := kind, gated := 0, base := 0, k := 16, source := 0, fixedRate := 16,
    staleLimit := 5, doorLine := doorLine, doorGrace := grace, indicatorLine := 0xFF, outageRate := 4 }

/-- ZoneIsSet, the refusals: not ACTIVE, a zone a batch holds, and an occupied one. -/
theorem test_case_setZone_refused :
    let occupied := plant.modZone 1 fun z => { z with residents := 1 }
    let held := { plant with
      batches := [batchOf (.move 0 (some 0) 2 512) [] [] [0]], settings := { UnitSettings.cold with arbiterMode := .portsFirst } }
    (quiescedPlant.takes .host (.setZone .host 1 (zoneFields 0 1 0 0xFF 2)) = true ∧ quiescedPlant.quiesce ≠ .active) ∧
      (held.grants .host (.setZone .host 1 (zoneFields 2 0 2 0xFF 2)) = true ∧ held.quiesce = .active ∧
        (held.zone 2).cfg.active = true ∧ held.heldByBatch 2 = true) ∧
      (occupied.grants .host (.setZone .host 1 (zoneFields 1 1 2 0xFF 2)) = true ∧ occupied.heldByBatch 1 = false ∧
        (occupied.zone 1).cfg.kind ≠ zoneKindOf 2 ∧ 0 < (occupied.zone 1).residents) := by decide

/-- ZoneIsSet, accepted: an activation, a zone kept active with its line and its limit kept or changed, a deactivation,
and a mode that changes by the door either way. -/
theorem test_case_setZone_accepted :
    let f := freshZone (zoneOf .floor 0 8 false) 24 0
    let on := { f with cfg := { f.cfg with doorLine := some 1, doorGrace := 9 }, doorOpen := true, openMinutes := 3 }
    let off := { on with cfg := { on.cfg with doorGrace := 0 }, doorDegraded := true, mode := .degraded }
    let s := { plant with zones := [Zone.cold, on, off] }
    let set (z a l g : Byte) := Instr.setZone .host 1 (zoneFields z a 0 l g)
    s.quiesce = .active ∧ s.zones.length = 3 ∧
      (s.grants .host (set 0 1 0xFF 2) = true ∧ (s.zone 0).cfg.active = false ∧ (1 : Byte) ≠ 0 ∧
        (s.zone 0).cfg.kind = zoneKindOf 0) ∧
      (s.grants .host (set 1 1 1 3) = true ∧ (s.zone 1).cfg.active = true ∧ (s.zone 1).cfg.doorLine = lineOf 1 ∧
        (s.zone 1).mode = .normal ∧ zoneMode (s.reconfigure (s.zone 1) (zoneConfigOf (zoneFields 1 1 0 1 3))) = .degraded) ∧
      (s.grants .host (set 1 1 2 9) = true ∧ (s.zone 1).cfg.doorLine ≠ lineOf 2) ∧
      (s.grants .host (set 1 0 1 9) = true ∧ s.heldByBatch 1 = false ∧ (s.zone 1).residents = 0 ∧
        (s.zone 1).containers = 0 ∧ lineOf 1 ≠ none) ∧
      (s.grants .host (set 2 1 0xFF 9) = true ∧ (s.zone 2).cfg.doorLine ≠ none ∧ (s.zone 2).mode = .degraded ∧
        zoneMode (s.reconfigure (s.zone 2) (zoneConfigOf (zoneFields 2 1 0 0xFF 9))) = .normal) := by decide

/-- The plant with a frame in progress on the Host Link, as the bytes received since its lead byte. -/
def midFrame (got : List Byte) : State := plant.setLink .host { plant.hostLink with frame := some got }

/-- FramesAreBuffered: bodies of 2 and 240 bytes; links with a frame in progress that the body goes on and that it does
not; a busy link with 3 frames, an idle link, a free hand beside 3 buffered frames, a link with 4; a reply with an empty
buffer and with a frame; a silent link. -/
theorem test_case_frames :
    let two : List Byte := [0x01, 0x02]
    let link (h : Option Hand) (n : Nat) : State :=
      plant.setLink .host { plant.hostLink with hand := h, buffer := List.replicate n two }
    let busy := link (some (.replying []))
    (plant.ready = true ∧ 2 ≤ two.length ∧ (List.replicate 240 (0 : Byte)).length ≤ 240) ∧
      ((midFrame [0x02, 0x01]).ready = true ∧ (midFrame [0x02, 0x01]).continues .host (frameRest two 0) = true ∧
        (midFrame [0x03]).continues .host (frameRest two 0) = false) ∧
      ((busy 3).ready = true ∧ ((busy 3).link .host).hand ≠ none ∧ ((busy 3).link .host).buffer.length < 4 ∧
        (busy 3).continues .host (frameRest two 0) = true) ∧
      ((plant.link .floor).hand = none ∧ (plant.link .floor).buffer = [] ∧ (plant.link .floor).frame = none) ∧
      ((link none 3).ready = true ∧ ((link none 3).link .host).hand = none ∧
        ((link none 3).link .host).buffer = two :: List.replicate 2 two) ∧
      4 ≤ ((busy 4).link .host).buffer.length ∧
      ((busy 0).calm = true ∧ (busy 0).running = true ∧ ((busy 0).link .host).hand = some (.replying []) ∧
        ((busy 0).link .host).buffer = []) ∧
      ((busy 1).link .host).buffer = [two] ∧ State.unpowered.running = false := by decide

/-- BadFramesAreDiscarded: lengths 1 and 241, a wrong check, silences after nothing and within a frame; the same byte by
byte, from hunting to the second check byte. -/
theorem test_case_badFrames :
    (plant.ready = true ∧ (1 : Byte).toNat < 2 ∧ 240 < (241 : Byte).toNat ∧ plant.continues .host [1] = true ∧
      plant.continues .host [] = true ∧ (midFrame []).continues .host [241] = true) ∧
      ((0 : Half) ≠ crc [0x02, 0x01, 0x02] ∧ plant.continues .host (frameRest [0x01, 0x02] 0) = true) ∧
      (2 ≤ (2 : Byte).toNat ∧ (2 : Byte).toNat ≤ 240 ∧ 3 < (2 : Byte).toNat + 2 ∧
        (midFrame [2]).continues .host [2, 1, 2, 0] = true) ∧
      ((plant.link .host).frame = none ∧ (0x5B : Byte) ≠ 0x5A ∧ ((midFrame []).link .host).frame = some []) ∧
      (((midFrame [2, 1, 2, 0]).link .host).frame = some (2 :: [1, 2, 0]) ∧
        [1, 2, 0] ++ [(0 : Byte)] = [1, 2] ++ [0, 0] ∧ (0 : Byte) ++ (0 : Byte) ≠ crc (2 :: [1, 2])) := by decide

/-- The bytes of a frame, one at a time, leave what its row leaves: a good frame, a wrong check, a bad length (R180). -/
theorem test_bytes_are_frames :
    let feed (bytes : List Byte) := bytes.foldl (fun u b => u.takeByte .host b) plant
    let gives (c : Instr) (t : State) : Bool := match exec c plant with
      | .next u => decide (u = t)
      | _ => false
    let body : List Byte := [0x01, 0x02]
    gives (.goodFrame .host body (frameCheck body)) (feed (frameOf body)) = true ∧
      gives (.badFrame .host (.check body 0)) (feed (0x5A :: frameRest body 0)) = true ∧
      gives (.badFrame .host (.length 1)) (feed [0x11, 0x5A, 1]) = true := by decide

/-- BodiesAreDecoded: an unknown kind, one not permitted, fields cut short, fields out of range, and a request. -/
theorem test_case_bodies :
    (0x07 : Byte) ∉ catalogue ∧ ((0x06 : Byte) ∈ catalogue ∧ permitted .floor 0x06 = false) ∧
      (parseFields .host 0x21 1 [] = none ∧ (0x21 : Byte) ∈ catalogue ∧ permitted .host 0x21 = true) ∧
      (parseFields .host 0x21 1 [64] = some (.zoneInfo .host 1 64) ∧ fieldsOk (.zoneInfo .host 1 64) = false) ∧
      (parseFields .floor 0x21 1 [63] = some (.zoneInfo .floor 1 63) ∧ fieldsOk (.zoneInfo .floor 1 63) = true) := by
  decide

/-- RequestsInHand: not permitted, out of range, made to wait by a due drain, granted, and a hand that is taken. -/
theorem test_case_requests :
    let due := { plant with zones := [{ zoneOf .floor 0 8 false with eList := [{ slot := 0, key := 0 }] }] }
    let c := Instr.lookup .floor 1 (reel 0) none
    (requestOf c = some (.floor, 1) ∧ plant.ready = true ∧ (plant.link .floor).hand = none ∧
      (plant.link .floor).buffer = [] ∧ (plant.link .floor).frame = none) ∧
      permitted .floor (kindCode (.resume .floor 1)) = false ∧
      (permitted .floor (kindCode c) = true ∧ fieldsOk (.lookup .floor 1 [] none) = false) ∧
      (due.ready = true ∧ fieldsOk c = true ∧ due.waitsForStore c = true ∧
        (due.holding .floor c).awards (.port .floor) = false) ∧
      ((midFrame []).calm = true ∧ ((midFrame []).link .host).frame ≠ none ∧
        ((midFrame []).link .host).hand ≠ some (.waiting (.status .host 2))) ∧
      ((plant.holding .floor c).calm = true ∧ ((plant.holding .floor c).link .floor).hand ≠ none ∧
        ((plant.holding .floor c).link .floor).hand ≠ some (.waiting (.status .floor 2))) := by decide

/-- The fields of a SETUNIT. -/
def unitFields (mode stale inversion : Byte) : UnitFields :=
  { arbiterMode := mode, alertOrder := 1, hostLimit := 255, floorLimit := 1, staleRate := stale, watchBlock := 0,
    inversion := inversion }

/-- StatusAndClock and UnitIsSet: taken, ACTIVE or not, and a zone on a line whose inversion changes. -/
theorem test_case_unit :
    let z := { zoneOf .floor 0 8 false with cfg := { Zone.cold.cfg with active := true, doorLine := some 7 } }
    let s := { plant with zones := [z, zoneOf .dry 256 8 false] }
    let i := Instr.setUnit .host 1 (unitFields 2 0 0x80)
    plant.takes .floor (.status .floor 1) = true ∧ plant.takes .host (.setClock .host 1 0xFFFFFFFF) = true ∧
      (quiescedPlant.takes .host i = true ∧ quiescedPlant.quiesce ≠ .active) ∧
      (plant.takes .host (.setUnit .host 1 (unitFields 0 255 0)) = true ∧ plant.quiesce = .active ∧
        (unitFields 0 255 0).inversion = plant.settings.inversion) ∧
      (s.takes .host i = true ∧ (s.zone 0).cfg.active = true ∧ (s.zone 0).cfg.doorLine = some 7 ∧
        s.settings.inversion.getLsbD 7 ≠ (0x80 : Byte).getLsbD 7) ∧
      (s.zone 1).cfg.doorLine = none ∧ s.settings.inversion.getLsbD 6 = (0x80 : Byte).getLsbD 6 ∧
      (s.doorLevel.getLsbD 7 ^^ (0x80 : Byte).getLsbD 7) = true ∧
      (({ s with doorLevel := 0x80 } : State).doorLevel.getLsbD 7 ^^ (0x80 : Byte).getLsbD 7) = false ∧
      s.settings.staleRate ≠ (0 : Byte).toNat ∧ (s.zone 1).stale = true := by decide

/-- SETUNIT takes a line that opens, 2, before one that closes, 7 (log entry 21): the zones degraded and restored. -/
theorem test_unit_alerts :
    let z (line : Nat) := { freshZone (zoneOf .dry 0 8 false) 0 8 with
      cfg := { (zoneOf .dry 0 8 false).cfg with doorLine := some line, doorGrace := 0 } }
    let s := { plant with
      doorLevel := 0x80
      zones := [{ z 7 with doorOpen := true, doorDegraded := true, mode := .degraded }, z 2] }
    (match exec (.setUnit .host 1 (unitFields 0 255 0x84)) s with
      | .next t => t.alerts.drop s.alerts.length |>.map fun a => (a.kind, a.subject)
      | _ => []) = [(.zoneDegraded, .zone 1), (.zoneRestored, .zone 0)] := by decide

/-- QuiesceStates, ResumeMakesActive and EraseEmptiesTheStore: each quiesce state with and without records. -/
theorem test_case_quiesce :
    let one := running (batchOf (.revision 1) [] [] [])
    let winding := { fullPlant .quiescing with portCount := 0 }
    (plant.grants .host (.quiesceImmediate .host 1) = true ∧ plant.batches = []) ∧
      (one.grants .host (.quiesceImmediate .host 1) = true ∧ one.batches ≠ []) ∧
      (plant.grants .host (.quiesceConditional .host 1) = true ∧ plant.quiesce ≠ .quiescing) ∧
      one.grants .host (.quiesceConditional .host 1) = true ∧
      (winding.grants .host (.quiesceConditional .host 1) = true ∧ winding.quiesce = .quiescing) ∧
      (winding.grants .host (.resume .host 1) = true ∧ winding.quiesce ≠ .active) ∧
      (plant.grants .host (.resume .host 1) = true ∧ plant.quiesce = .active) ∧
      (plant.ready = true ∧ plant.floorLink.hand = none ∧ plant.floorLink.buffer = [] ∧ plant.floorLink.frame = none) ∧
      (plant.grants .host (.erase .host 1) = true ∧ plant.quiesce ≠ .quiesced) ∧
      ((fullPlant .quiesced).grants .host (.erase .host 1) = true ∧ (fullPlant .quiesced).batches ≠ []) ∧
      (quiescedPlant.grants .host (.erase .host 1) = true ∧ quiescedPlant.batches = []) := by decide

/-- ResumeMakesActive: a next state from QUIESCED and from QUIESCING. -/
theorem test_case_resume_next :
    (∃ t, exec (.resume .host 1) (fullPlant .quiesced) = .next t) ∧
      ∃ t, exec (.resume .host 1) (fullPlant .quiescing) = .next t := ⟨⟨_, rfl⟩, _, rfl⟩

/-- OrderOfChecks: a label not found, an item in transit, one the other link claims, a stale stamp, and QUIESCED. -/
theorem test_case_checks :
    let i := Instr.pack .floor 1 (reel 0) (some 1)
    let stale := Instr.pack .floor 1 (reel 0) (some 65535)
    let moving := plant.modCarrier 0 fun c => { c with inTransit := true }
    let claimed := { plant with claims := [{ item := .carrier 0, link := .host, seconds := 1 }] }
    requestOf i = some (.floor, 1) ∧ itemOperands i = some (reel 0, 1) ∧ plant.grants .floor i = true ∧
      plant.find (reel 9) = none ∧ plant.find (reel 0) = some (.carrier 0) ∧
      (moving.grants .floor i = true ∧ moving.inTransit (.carrier 0) = true) ∧
      (claimed.grants .floor i = true ∧ claimed.inTransit (.carrier 0) = false ∧
        (claimed.claimOf (.carrier 0)).map (·.link) = some .host) ∧
      (plant.grants .floor stale = true ∧ itemOperands stale = some (reel 0, 65535) ∧
        plant.otherClaim .floor (.carrier 0) = none ∧ 65535 ≠ plant.stampOf (.carrier 0)) ∧
      (quiescedPlant.grants .floor i = true ∧ 1 = quiescedPlant.stampOf (.carrier 0) ∧
        quiescedPlant.quiesce ≠ .active) := by decide

/-- OrderOfChecks, NEST: an item and a target not found, in transit and claimed by the other link; a stale stamp, and
QUIESCED. -/
theorem test_case_checks_nest :
    let i (n : Nat) (t : Label) (st : Option Half) := Instr.nest .floor 1 (reel n) t st
    let movingItem := plant.modCarrier 0 fun c => { c with inTransit := true }
    let movingTarget := plant.modContainer 1 fun c => { c with inTransit := true }
    let claims (it : Item) := { plant with claims := [{ item := it, link := .host, seconds := 1 }] }
    (plant.grants .floor (i 9 (box 1) none) = true ∧ plant.find (reel 9) = none) ∧
      (plant.grants .floor (i 0 (box 9) none) = true ∧ plant.find (box 9) = none) ∧
      (plant.find (reel 0) = some (.carrier 0) ∧ plant.find (box 1) = some (.container 1)) ∧
      (movingItem.grants .floor (i 0 (box 1) none) = true ∧ movingItem.inTransit (.carrier 0) = true) ∧
      (movingTarget.grants .floor (i 0 (box 1) none) = true ∧ movingTarget.inTransit (.carrier 0) = false ∧
        movingTarget.inTransit (.container 1) = true) ∧
      ((claims (.carrier 0)).grants .floor (i 0 (box 1) none) = true ∧
        ((claims (.carrier 0)).claimOf (.carrier 0)).map (·.link) = some .host) ∧
      ((claims (.container 1)).grants .floor (i 0 (box 1) none) = true ∧
        (claims (.container 1)).otherClaim .floor (.carrier 0) = none ∧
        ((claims (.container 1)).claimOf (.container 1)).map (·.link) = some .host) ∧
      (plant.grants .floor (i 0 (box 1) (some 2)) = true ∧ stampOperand (some 2) ≠ 0 ∧
        stampOperand (some 2) ≠ plant.stampOf (.carrier 0) ∧ plant.otherClaim .floor (.container 1) = none) ∧
      (quiescedPlant.grants .floor (i 0 (box 1) (some 1)) = true ∧
        stampOperand (some 1) = quiescedPlant.stampOf (.carrier 0) ∧ quiescedPlant.quiesce ≠ .active) := by decide

/-- EntryTests: locations at both ends of a window and past it, and each test of a zone. -/
theorem test_case_entries :
    let evac := plant.modZone 3 fun z => { z with evacuating := true }
    let watching (b : Bool) : State :=
      { plant with capture := none, watch := { base := 768, k := 8, mask := 1, block := b, armed := true } }
    plant.mapLoc 768 = some 3 ∧ plant.mapLoc 1023 = some 3 ∧ plant.mapLoc 1024 = none ∧ (zoneOf .floor 768 8 true).cfg.gated = true ∧
      (evac.mapLoc 768 = some 3 ∧ (evac.zone 3).evacuating = true) ∧
      ((plant.zone 3).evacuating = false ∧ (plant.zone 3).cfg.gated = true) ∧
      (plant.mapLoc 512 = some 2 ∧ (plant.zone 2).cfg.gated = false ∧ (plant.zone 2).cfg.kind = .oven) ∧
      plant.watchMatches .hostLink 768 = false ∧
      ((watching true).mapLoc 768 = some 3 ∧ (watching true).watchMatches (linkSource .host) 768 = true ∧
        (watching true).watch.block = true) ∧
      ((watching false).watchMatches (linkSource .host) 768 = true ∧ (watching false).watch.block = false) := by decide

/-- CarrierIsEnrolled, accepted: packed without a location, and at the first code of an oven. -/
theorem test_case_enrol :
    let a := Instr.enrolCarrier .host 1 (reel 9) 1 268435455 1 15 none
    let b := Instr.enrolCarrier .host 1 (reel 9) 1 0 0 0 (some 512)
    (plant.grants .host a = true ∧ plant.grants .host b = true ∧ plant.find (reel 9) = none ∧
      tabWf plant.carriers = true ∧ plant.quiesce = .active ∧ (plant.cls 1).values = some classFive ∧
      0 < classFive.bakeRequirement ∧ tabFree 4096 plant.carriers = some 5) ∧
      ∃ x z g, (some 512 : Option Half) = some x ∧ (some 2 : Option Nat) = some z ∧
        (plant.granted .host b).enterCarrier .host (reel 9) x.toNat .fresh false true = .admitted g z := by
  intro a b
  refine ⟨by decide, 512, 2, ?_⟩
  obtain ⟨g, h⟩ :=
    admitted_of (e := (plant.granted .host b).enterCarrier .host (reel 9) 512 .fresh false true) (z := 2) (by decide)
  exact ⟨g, rfl, rfl, h⟩

/-- R78 in an oven with the budget used: the first settle's WARNED, then BAKE_REFUSED, an E key and no P key. -/
theorem test_enrol_alerts :
    (match exec (.enrolCarrier .host 1 (reel 9) 1 370 0 2 (some 512)) plant with
      | .next t =>
        ((t.alerts.drop plant.alerts.length).map (·.kind), (t.carrier 5).map fun c => (c.eKey, c.pKey),
          (t.zone 2).counts.warned)
      | _ => ([], none, 0)) = ([.warned, .bakeRefused], some (some 1760, none), 1) := by decide

/-- CarrierIsEnrolled, refused: a label in use, QUIESCED, an undefined class, no free slot, an unmapped location. -/
theorem test_case_enrol_refused :
    let i (label : Label) (cls : Byte) := Instr.enrolCarrier .host 1 label cls 0 0 0 (some 65535)
    plant.grants .host (i (reel 0) 1) = true ∧ plant.find (reel 0) ≠ none ∧
      (quiescedPlant.grants .host (i (reel 9) 1) = true ∧ quiescedPlant.find (reel 9) = none) ∧
      (plant.grants .host (i (reel 9) 31) = true ∧ (plant.cls 31).values = none) ∧
      (plant.grants .host (i (reel 9) 1) = true ∧ (plant.cls 1).values ≠ none ∧ tabFree 4096 plant.carriers ≠ none ∧
        admittedTo ((plant.granted .host (i (reel 9) 1)).enterCarrier .host (reel 9) 65535 .fresh false true) = none) := by
  decide

/-- A table whose numbers run on from `a` holds the next `k` of them. -/
theorem tabFreeFrom_run {α : Type} (x : α) : ∀ (k a : Nat),
    tabFreeFrom a ((List.range' a k).map fun n => (n, x)) = a + k
  | 0, a => rfl
  | k + 1, a => by
    rw [List.range'_succ, List.map_cons]
    simp only [tabFreeFrom, if_true]
    rw [tabFreeFrom_run x k (a + 1)]
    omega

/-- The plant with every slot or number taken. -/
def crowded : State :=
  { plant with
    carriers := (List.range' 0 4096).map fun n => (n, carrierOf none none .still true)
    containers := (List.range' 0 512).map fun n => (n, boxOf false (.place 0 7) [] 0 1) }

/-- CarrierIsEnrolled and ContainerIsEnrolled: no slot and no number is free. -/
theorem test_case_full :
    (crowded.grants .host (.enrolCarrier .host 1 (reel 9) 1 0 1 0 none) = true ∧ crowded.find (reel 9) = none ∧
      crowded.quiesce = .active ∧ (crowded.cls 1).values ≠ none ∧ tabFree 4096 crowded.carriers = none) ∧
      (crowded.grants .host (.enrolContainer .host 1 (box 9) 0 none) = true ∧ crowded.find (box 9) = none ∧
        tabFree 512 crowded.containers = none) := by
  refine ⟨⟨by decide, by decide, rfl, by decide, ?_⟩, by decide, by decide, ?_⟩
  · simp only [tabFree, crowded, tabFreeFrom_run]
    decide
  · simp only [tabFree, crowded, tabFreeFrom_run]
    decide

/-- ContainerIsEnrolled: without a location and with one; the refusals. -/
theorem test_case_enrolContainer :
    let a := Instr.enrolContainer .host 1 (box 9) 1 none
    let b := Instr.enrolContainer .host 1 (box 9) 0 (some 255)
    (plant.grants .host a = true ∧ plant.grants .host b = true ∧ plant.find (box 9) = none ∧
      tabWf plant.containers = true ∧ plant.quiesce = .active ∧ tabFree 512 plant.containers = some 5 ∧
      admittedTo ((plant.granted .host b).enterContainer .host (box 9) 255) = some 0) ∧
      (plant.grants .host (.enrolContainer .host 1 (box 0) 0 none) = true ∧ plant.find (box 0) ≠ none) ∧
      (quiescedPlant.grants .host a = true ∧ quiescedPlant.quiesce ≠ .active) ∧
      (plant.grants .host (.enrolContainer .host 1 (box 9) 0 (some 1024)) = true ∧
        plant.mapLoc (1024 : Half).toNat = none) := by decide

/-- ContainerIsEnrolled: a location in a zone under evacuation, and one that matches the watch, which blocks or not. -/
theorem test_case_enrolContainer_barred :
    let evac := plant.modZone 3 fun z => { z with evacuating := true }
    let watching (b : Bool) : State :=
      { plant with capture := none, watch := { base := 768, k := 8, mask := 1, block := b, armed := true } }
    let i := Instr.enrolContainer .host 1 (box 9) 0 (some 768)
    (evac.grants .host i = true ∧ evac.mapLoc 768 = some 3 ∧ (evac.zone 3).evacuating = true) ∧
      ((watching true).grants .host i = true ∧ (watching true).watchMatches .hostLink 768 = true ∧
        (watching true).watch.block = true ∧ ((watching true).zone 3).evacuating = false ∧
        tabFree 512 (watching true).containers ≠ none) ∧
      ((watching false).grants .host i = true ∧ (watching false).watchMatches .hostLink 768 = true ∧
        (watching false).watch.block = false) ∧
      plant.watchMatches .hostLink 768 = false := by decide

/-- An ENROL of a container that the watch lets pass keeps the match and its CAPTURE (R165). -/
theorem test_enrolContainer_match :
    (match exec (.enrolContainer .host 1 (box 9) 0 (some 768))
        { plant with capture := none, watch := { base := 768, k := 8, mask := 1, block := false, armed := true } } with
      | .next t => decide ((t.capture.bind (·.blocked)) = some false ∧ t.watch.armed = false ∧ t.alerts ≠ [] ∧
          (t.container 5).map (·.zone) = some (some 3))
      | _ => false) = true := by decide

/-- Steps 3 to 7 of the order of checks pass, as a Bool. -/
def passesNow (s : State) (l : Link) (label : Label) (stamp : Nat) (it : Item) : Bool :=
  decide (s.find label = some it) && !s.inTransit it && decide (s.otherClaim l it = none) &&
    (decide (stamp = 0) || decide (stamp = s.stampOf it)) && decide (s.quiesce = .active)

theorem passesNow_iff (s : State) (l : Link) (label : Label) (stamp : Nat) (it : Item) :
    passesNow s l label stamp it = true ↔ s.passes l label stamp it := by
  simp [passesNow, State.passes, and_assoc]

/-- A request on a container is granted and passes the order of checks. -/
def boxPasses (s : State) (l : Link) (i : Instr) (n : Nat) : Bool :=
  s.grants l i && passesNow s l (box n) 0 (.container n)

/-- CarrierIsMoved: OPEN in place and at a location of a packed carrier, PLACE elsewhere and where it stands, PACK. -/
theorem test_case_moved :
    let c := carrierOf (some (.place 1 256)) (some 1) .still true
    let d := carrierOf (some (.place 0 5)) (some 0) .accrue false
    let a := Instr.openItem .floor 1 (reel 2) none none
    let b := Instr.openItem .floor 1 (reel 2) (some 1) (some 511)
    let p := Instr.place .floor 1 (reel 0) 1 6
    let q := Instr.place .floor 1 (reel 0) 0 5
    let k := Instr.pack .floor 1 (reel 0) none
    (plant.grants .floor a = true ∧ passesNow plant .floor (reel 2) (stampOperand none) (.carrier 2) = true ∧
      plant.carrier 2 = some c ∧ c.packed = true ∧ c.parent ≠ none ∧
      ¬((plant.settled c).1.life = .spent ∧ plant.modeUnder c.parent c.zone false = .bake ∧ c.mode ≠ .bake)) ∧
      (plant.grants .floor b = true ∧ passesNow plant .floor (reel 2) 1 (.carrier 2) = true ∧
        Parent.container? c.parent = none ∧
        admittedTo (((plant.stepEight .floor b (.carrier 2)).settle 2).1.enterCarrier .floor (reel 2) 511
          (plant.settled c).1.life (decide (c.hold ≠ 0)) (decide (plant.locOfParent c.parent ≠ some 511))) = some 1) ∧
      (plant.grants .floor p = true ∧ passesNow plant .floor (reel 0) 1 (.carrier 0) = true ∧ plant.carrier 0 = some d ∧
        Parent.container? d.parent = none ∧ plant.locOfParent d.parent ≠ some 6 ∧
        admittedTo (((plant.stepEight .floor p (.carrier 0)).settle 0).1.enterCarrier .floor (reel 0) 6
          (plant.settled d).1.life (decide (d.hold ≠ 0)) (decide (plant.locOfParent d.parent ≠ some 6))) = some 0) ∧
      (plant.grants .floor q = true ∧ passesNow plant .floor (reel 0) 0 (.carrier 0) = true ∧
        plant.locOfParent d.parent = some 5 ∧
        admittedTo (((plant.stepEight .floor q (.carrier 0)).settle 0).1.enterCarrier .floor (reel 0) 5
          (plant.settled d).1.life (decide (d.hold ≠ 0)) (decide (plant.locOfParent d.parent ≠ some 5))) = some 0) ∧
      (plant.grants .floor k = true ∧ passesNow plant .floor (reel 0) (stampOperand none) (.carrier 0) = true ∧
        d.packed = false) := by
  decide

/-- A request on a carrier is granted and passes the order of checks. -/
def reelPasses (s : State) (l : Link) (i : Instr) (n : Nat) : Bool :=
  s.grants l i && passesNow s l (reel n) 0 (.carrier n)

/-- CarrierIsMoved, refused: OPEN of a carrier not packed, of one with no parent, of a SPENT one in an oven, of a nested one
at a location, and at a location that admits none; PLACE of a nested one and at such a location; PACK of a packed one. -/
theorem test_case_moved_refused :
    let o (n : Nat) (loc : Option Half) := Instr.openItem .floor 1 (reel n) none loc
    let p (n : Nat) (loc : Half) := Instr.place .floor 1 (reel n) 0 loc
    let out := plant.modCarrier 2 fun c => { c with zone := some 2, parent := some (.place 2 512), life := .spent }
    let packed := plant.modCarrier 3 fun c => { c with packed := true, mode := .still }
    let enters (n : Nat) (i : Instr) (loc : Nat) :=
      admittedTo (((plant.stepEight .floor i (.carrier n)).settle n).1.enterCarrier .floor (reel n) loc .fresh false true)
    (reelPasses plant .floor (o 0 none) 0 = true ∧ (plant.carrier 0).map (·.packed) = some false) ∧
      (reelPasses plant .floor (o 1 none) 1 = true ∧ (plant.carrier 1).map (·.parent) = some none) ∧
      (reelPasses out .floor (o 2 none) 2 = true ∧
        (out.carrier 2).map (fun c => ((out.settled c).1.life, out.modeUnder c.parent c.zone false, c.mode, c.packed)) =
          some (.spent, .bake, .still, true)) ∧
      (reelPasses packed .floor (o 3 (some 5)) 3 = true ∧
        (packed.carrier 3).map (fun c => (c.packed, Parent.container? c.parent)) = some (true, some 1)) ∧
      (reelPasses plant .floor (o 2 (some 1024)) 2 = true ∧ enters 2 (o 2 (some 1024)) 1024 = none) ∧
      (reelPasses plant .floor (p 3 5) 3 = true ∧ (plant.carrier 3).bind (fun c => Parent.container? c.parent) = some 1) ∧
      (reelPasses plant .floor (p 0 1024) 0 = true ∧ enters 0 (p 0 1024) 1024 = none) ∧
      (reelPasses plant .floor (.pack .floor 1 (reel 2) none) 2 = true ∧ (plant.carrier 2).map (·.packed) = some true) := by
  decide

/-- ContainerBatches, OPEN of a container: a location, not packed, an item in transit, a full queue, accepted. -/
theorem test_case_openContainer :
    let o (n : Nat) (loc : Option Half) := Instr.openItem .host 1 (box n) (some 0) loc
    let moving := plant.modCarrier 4 fun c => { c with inTransit := true }
    let full := fullPlant .active
    (boxPasses plant .host (o 2 (some 9)) 2 = true ∧ boxPasses plant .host (o 0 none) 0 = true ∧ plant.packedFlag 0 = false) ∧
      (boxPasses moving .host (o 2 none) 2 = true ∧ moving.packedFlag 2 = true ∧ moving.subtreeInTransit 2 = true) ∧
      (boxPasses full .host (o 2 none) 2 = true ∧ full.subtreeInTransit 2 = false ∧ 8 ≤ full.batches.length) ∧
      (boxPasses plant .host (o 2 none) 2 = true ∧ plant.subtreeInTransit 2 = false ∧ plant.batches.length < 8) := by
  decide

/-- ContainerBatches, PACK and PLACE of a container, and the scope BatchIsAccepted takes: packed, accepted; nested,
unmapped, where it stands, into a zone under evacuation, accepted. -/
theorem test_case_packPlaceContainer :
    let k (n : Nat) := Instr.pack .host 1 (box n) none
    let p (n : Nat) (loc : Half) := Instr.place .host 1 (box n) 0 loc
    let evac := plant.modZone 3 fun z => { z with evacuating := true }
    (boxPasses plant .host (k 2) 2 = true ∧ plant.packedFlag 2 = true ∧ boxPasses plant .host (k 1) 1 = true ∧
        plant.packedFlag 1 = false ∧ plant.subtreeInTransit 1 = false) ∧
      (boxPasses plant .host (p 3 9) 3 = true ∧ plant.parentOf 3 ≠ none) ∧
      (boxPasses plant .host (p 1 1024) 1 = true ∧ plant.parentOf 1 = none ∧ plant.mapLoc 1024 = none) ∧
      (boxPasses plant .host (p 1 8) 1 = true ∧ plant.mapLoc 8 = some 0 ∧
        plant.locOfParent ((plant.container 1).bind (·.parent)) = some 8) ∧
      (plant.grants .host (p 1 768) = true ∧ plant.mapLoc 768 = some 3 ∧ (plant.zone 3).evacuating = false) ∧
      (boxPasses evac .host (p 1 768) 1 = true ∧ (evac.zone 3).evacuating = true) ∧
      [(3 : Nat)] = plant.subCarriers 1 ∧ [(1 : Nat)] = plant.subContainers 1 := by
  decide

/-- ContainerBatches, PACK and PLACE of a container with an item in transit, and with a full queue. -/
theorem test_case_packPlace_refused :
    let k := Instr.pack .host 1 (box 1) none
    let p := Instr.place .host 1 (box 1) 0 768
    let moving := plant.modCarrier 3 fun c => { c with inTransit := true }
    let full := fullPlant .active
    (boxPasses moving .host k 1 = true ∧ moving.packedFlag 1 = false ∧ moving.subtreeInTransit 1 = true) ∧
      (boxPasses full .host k 1 = true ∧ full.subtreeInTransit 1 = false ∧ 8 ≤ full.batches.length) ∧
      (boxPasses moving .host p 1 = true ∧ moving.parentOf 1 = none ∧ moving.mapLoc (768 : Half).toNat = some 3 ∧
        moving.locOfParent ((moving.container 1).bind (·.parent)) ≠ some (768 : Half).toNat) ∧
      boxPasses full .host p 1 = true := by decide

/-- NestPutsIn: a carrier into an open container; containers whose effective packing stays and changes; the latter with
a full queue; and the two containers of a join. -/
theorem test_case_nest :
    let c := carrierOf (some (.place 0 5)) (some 0) .accrue false
    let a := Instr.nest .floor 1 (reel 0) (box 1) none
    let b := Instr.nest .host 1 (box 0) (box 1) none
    let d := Instr.nest .host 1 (box 1) (box 2) none
    let full := fullPlant .active
    (plant.grants .floor a = true ∧ passesNow plant .floor (reel 0) (stampOperand none) (.carrier 0) = true ∧
      plant.find (box 1) = some (.container 1) ∧ plant.inTransit (.container 1) = false ∧
      plant.otherClaim .floor (.container 1) = none ∧ plant.carrier 0 = some c ∧ Parent.container? c.parent = none ∧
      c.zone = some 0 ∧ plant.itemZone (.container 1) = some 0 ∧
      (∀ m ∈ (plant.chain 1).drop 1, plant.inTransit (.container m) = false) ∧ (plant.members 1).length < 64 ∧
      (∀ m ∈ plant.chain 1, plant.subtreeCount m + 1 ≤ 256) ∧ (plant.chain 1).Nodup) ∧
      (boxPasses plant .host b 0 = true ∧ plant.parentOf 0 = none ∧ plant.itemZone (.container 0) = some 0 ∧
        1 ∉ plant.subContainers 0 ∧ plant.subtreeInTransit 0 = false ∧
        (∀ m ∈ plant.chain 1, plant.subtreeCount m + plant.subtreeCount 0 ≤ 256) ∧
        ((plant.container 1).map (·.depth)).getD 0 + plant.height 0 ≤ 3 ∧ plant.effectivelyPacked 1 = false) ∧
      (boxPasses plant .host d 1 = true ∧ plant.find (box 2) = some (.container 2) ∧ plant.packedFlag 1 = false ∧
        plant.effectivelyPacked 2 = true ∧ 0 < plant.subtreeCount 1 ∧ plant.batches.length < 8 ∧
        2 ∉ plant.subContainers 1 ∧ (∀ m ∈ plant.chain 2, plant.subtreeCount m + plant.subtreeCount 1 ≤ 256) ∧
        ((plant.container 2).map (·.depth)).getD 0 + plant.height 1 ≤ 3) ∧
      (boxPasses full .host d 1 = true ∧ 8 ≤ full.batches.length) ∧
      (plant.container 1 = some (boxOf false (.place 0 8) [.carrier 3] 1 1) ∧
        plant.container 2 = some (boxOf true (.place 0 9) [.container 3, .container 4] 1 1) ∧ 1 ∉ plant.chain 2 ∧
        (plant.chain 2).Nodup ∧ (plant.subContainers 1).Nodup ∧ 2 ∉ plant.subContainers 1) := by
  decide

/-- A container with a container below it that holds another, and a container for them to go into. -/
def stacked : State := plant.modContainer 3 fun c => { c with members := [.container 0] }

/-- NestPutsIn and UnnestTakesOut: the depths below a container that joins and that leaves, and the hypotheses of both
(R90). -/
theorem test_case_depths :
    let depth (s : State) (n : Nat) := (s.container n).map (·.depth)
    let u := stacked.joinContainer 2 1
    let w := stacked.leaveContainer 3
    (2 ∉ stacked.chain 1 ∧ (stacked.chain 1).Nodup ∧ (stacked.subContainers 2).Nodup ∧ 1 ∉ stacked.subContainers 2) ∧
      (depth u 2 = some 2 ∧ depth u 3 = some 3 ∧ depth u 0 = some 4 ∧ u.subtreeCount 1 = 2) ∧
      (stacked.parentOf 3 = some 2 ∧ 3 ∉ stacked.chain 2 ∧ (stacked.subContainers 3).Nodup ∧ 2 ∉ stacked.subContainers 3) ∧
      depth w 3 = some 1 ∧ depth w 0 = some 2 := by decide

/-- NestPutsIn, a carrier refused by each of R94's conditions: a carrier as target, a container it is in, another zone,
a chain in transit, and a chain or a target with no room. -/
theorem test_case_nest_carrier_refused :
    let i (n : Nat) (t : Label) := Instr.nest .host 1 (reel n) t none
    let moving := plant.modContainer 2 fun c => { c with inTransit := true }
    let brim := plant.modContainer 3 fun c => { c with members := List.replicate 64 (.carrier 9) }
    let heavy := plant.modContainer 2 fun c => { c with subtree := 256 }
    (reelPasses plant .host (i 0 (reel 3)) 0 = true ∧ plant.find (reel 3) = some (.carrier 3) ∧
        plant.inTransit (.carrier 3) = false ∧ plant.otherClaim .host (.carrier 3) = none) ∧
      (reelPasses plant .host (i 3 (box 2)) 3 = true ∧ (plant.carrier 3).bind (fun c => Parent.container? c.parent) = some 1) ∧
      (reelPasses plant .host (i 2 (box 2)) 2 = true ∧ (plant.carrier 2).map (·.zone) = some (some 1) ∧
        plant.itemZone (.container 2) = some 0) ∧
      (reelPasses moving .host (i 0 (box 3)) 0 = true ∧ moving.inTransit (.container 3) = false ∧
        (∃ m ∈ (moving.chain 3).drop 1, moving.inTransit (.container m) = true) ∧
        moving.itemZone (.container 3) = some 0) ∧
      (reelPasses brim .host (i 0 (box 3)) 0 = true ∧ 64 ≤ (brim.members 3).length ∧
        ∀ m ∈ (brim.chain 3).drop 1, brim.inTransit (.container m) = false) ∧
      (reelPasses heavy .host (i 0 (box 3)) 0 = true ∧ ∃ m ∈ heavy.chain 3, 256 < heavy.subtreeCount m + 1) := by decide

/-- NestPutsIn, a container refused by each of R94's conditions: a carrier as target, a container it is in, another zone,
a target below it, items in transit on either side, and no room for members, carriers or levels. -/
theorem test_case_nest_container_refused :
    let i (n : Nat) (t : Label) := Instr.nest .host 1 (box n) t none
    let away := plant.modContainer 0 fun c => { c with zone := some 1 }
    let moving := plant.modContainer 2 fun c => { c with inTransit := true }
    let carried := plant.modCarrier 3 fun c => { c with inTransit := true }
    let brim := plant.modContainer 1 fun c => { c with members := List.replicate 64 (.carrier 9) }
    let heavy := plant.modContainer 1 fun c => { c with subtree := 257 }
    let deep := plant.modContainer 1 fun c => { c with depth := 3 }
    (boxPasses plant .host (i 0 (reel 3)) 0 = true ∧ plant.find (reel 3) = some (.carrier 3)) ∧
      (boxPasses plant .host (i 3 (box 0)) 3 = true ∧ plant.parentOf 3 = some 2) ∧
      (boxPasses away .host (i 0 (box 1)) 0 = true ∧ away.parentOf 0 = none ∧
        away.itemZone (.container 0) ≠ away.itemZone (.container 1)) ∧
      (boxPasses plant .host (i 2 (box 4)) 2 = true ∧ plant.parentOf 2 = none ∧ 4 ∈ plant.subContainers 2 ∧
        plant.itemZone (.container 2) = plant.itemZone (.container 4)) ∧
      (boxPasses moving .host (i 0 (box 3)) 0 = true ∧ 3 ∉ moving.subContainers 0 ∧
        ∃ m ∈ (moving.chain 3).drop 1, moving.inTransit (.container m) = true) ∧
      (boxPasses carried .host (i 1 (box 0)) 1 = true ∧ carried.subtreeInTransit 1 = true) ∧
      (boxPasses brim .host (i 0 (box 1)) 0 = true ∧ 64 ≤ (brim.members 1).length ∧ brim.subtreeInTransit 0 = false) ∧
      (boxPasses heavy .host (i 1 (box 0)) 1 = true ∧ ∃ m ∈ heavy.chain 0, 256 < heavy.subtreeCount m + heavy.subtreeCount 1) ∧
      (boxPasses deep .host (i 0 (box 1)) 0 = true ∧ 3 < ((deep.container 1).map (·.depth)).getD 0 + deep.height 0) := by
  decide

/-- UnnestTakesOut, refused: the other link's claim on the container, an item in transit, a SPENT carrier in an oven; a
container in none, with its container claimed, with items in transit, and with a full queue. -/
theorem test_case_unnest_refused :
    let a := Instr.unnest .floor 1 (reel 3) none
    let b (l : Link) (n : Nat) := Instr.unnest l 1 (box n) none
    let claims (n : Nat) := { plant with claims := [{ item := .container n, link := .host, seconds := 1 }] }
    let moving (n : Nat) := plant.modContainer n fun c => { c with inTransit := true }
    let out := plant.modCarrier 4 fun c => { c with zone := some 2, life := .spent }
    (reelPasses (claims 1) .floor a 3 = true ∧ ((claims 1).carrier 3).map (·.parent) = some (some (.container 1)) ∧
        ((claims 1).claimOf (.container 1)).map (·.link) = some .host) ∧
      (reelPasses (moving 1) .floor a 3 = true ∧ (moving 1).otherClaim .floor (.container 1) = none ∧
        ∃ m ∈ (moving 1).chain 1, (moving 1).inTransit (.container m) = true) ∧
      (reelPasses out .host (.unnest .host 1 (reel 4) none) 4 = true ∧ out.otherClaim .host (.container 4) = none ∧
        (∀ m ∈ out.chain 4, out.inTransit (.container m) = false) ∧
        (out.carrier 4).map (fun c => ((out.settled c).1.life, out.modeIn c.zone c.packed, c.mode)) =
          some (.spent, .bake, .still)) ∧
      (boxPasses plant .host (b .host 0) 0 = true ∧ plant.parentOf 0 = none) ∧
      (boxPasses (claims 2) .floor (b .floor 3) 3 = true ∧ (claims 2).parentOf 3 = some 2 ∧
        ((claims 2).claimOf (.container 2)).map (·.link) = some .host) ∧
      (boxPasses (moving 2) .host (b .host 3) 3 = true ∧ (moving 2).otherClaim .host (.container 2) = none ∧
        ∃ m ∈ (moving 2).chain 2, (moving 2).inTransit (.container m) = true) ∧
      (boxPasses (fullPlant .active) .host (b .host 4) 4 = true ∧ 8 ≤ (fullPlant .active).batches.length) := by decide

/-- UnnestTakesOut: a carrier from its container; containers whose effective packing stays and changes; a carrier in no
container; the two containers of a leave. -/
theorem test_case_unnest :
    let c := carrierOf (some (.container 1)) (some 0) .accrue false
    let a := Instr.unnest .floor 1 (reel 3) none
    let b := Instr.unnest .host 1 (box 3) none
    let d := Instr.unnest .host 1 (box 4) none
    (plant.grants .floor a = true ∧ passesNow plant .floor (reel 3) (stampOperand none) (.carrier 3) = true ∧
      plant.carrier 3 = some c ∧ c.parent = some (.container 1) ∧ plant.otherClaim .floor (.container 1) = none ∧
      (∀ m ∈ plant.chain 1, plant.inTransit (.container m) = false) ∧ (plant.chain 1).Nodup ∧
      ¬((plant.settled c).1.life = .spent ∧ plant.modeIn c.zone c.packed = .bake ∧ c.mode ≠ .bake)) ∧
      (boxPasses plant .host b 3 = true ∧ plant.parentOf 3 = some 2 ∧ plant.otherClaim .host (.container 2) = none ∧
        (∀ m ∈ plant.chain 2, plant.inTransit (.container m) = false) ∧ plant.subtreeInTransit 3 = false ∧
        plant.subtreeCount 3 = 0) ∧
      (boxPasses plant .host d 4 = true ∧ plant.parentOf 4 = some 2 ∧ plant.subtreeInTransit 4 = false ∧
        plant.packedFlag 4 = false ∧ plant.effectivelyPacked 2 = true ∧ 0 < plant.subtreeCount 4 ∧
        plant.batches.length < 8) ∧
      (plant.container 4 = some (boxOf false (.container 2) [.carrier 4] 1 2) ∧
        plant.container 2 = some (boxOf true (.place 0 9) [.container 3, .container 4] 1 1) ∧ 4 ∉ plant.chain 2 ∧
        (plant.chain 2).Nodup ∧ (plant.subContainers 4).Nodup ∧ 2 ∉ plant.subContainers 4) ∧
      (plant.grants .floor (.unnest .floor 1 (reel 0) none) = true ∧
        passesNow plant .floor (reel 0) (stampOperand none) (.carrier 0) = true ∧
        Parent.container? (some (Parent.place 0 5)) = none) := by
  decide

/-- RetireAndHold: a nested carrier and one with no container retired, an empty and a full container, a reason new and
the same, a carrier held and not, a container. -/
theorem test_case_retireAndHold :
    let c := carrierOf (some (.container 1)) (some 0) .accrue false
    let held := { plant with carriers := [(0, { carrierOf (some (.place 0 5)) (some 0) .accrue false with hold := 255 })] }
    let r (l : Label) := Instr.retire .host 1 l none
    (plant.grants .host (r (reel 3)) = true ∧ passesNow plant .host (reel 3) (stampOperand none) (.carrier 3) = true ∧
      plant.carrier 3 = some c ∧ tabWf plant.carriers = true ∧ c.zone = some 0 ∧ c.zone ≠ some 1 ∧
      c.parent = some (.container 1) ∧ (plant.chain 1).Nodup) ∧
      (plant.grants .host (r (reel 1)) = true ∧ passesNow plant .host (reel 1) (stampOperand none) (.carrier 1) = true ∧
        plant.carrier 1 = some (carrierOf none none .still true)) ∧
      (boxPasses plant .host (r (box 1)) 1 = true ∧ plant.container 1 = some (boxOf false (.place 0 8) [.carrier 3] 1 1)) ∧
      (boxPasses plant .host (r (box 3)) 3 = true ∧ plant.container 3 = some (boxOf false (.container 2) [] 0 2) ∧
        tabWf plant.containers = true ∧ (2 : Nat) ≠ 3) ∧
      (held.grants .host (.hold .host 1 (reel 0) 255 none) = true ∧
        passesNow held .host (reel 0) (stampOperand none) (.carrier 0) = true ∧ (held.carrier 0).map (·.hold) = some 255) ∧
      (plant.grants .host (.hold .host 1 (reel 0) 1 none) = true ∧ (plant.carrier 0).map (·.hold) = some 0 ∧
        passesNow plant .host (reel 0) (stampOperand none) (.carrier 0) = true) ∧
      (held.grants .host (.unhold .host 1 (reel 0) none) = true ∧
        plant.grants .host (.unhold .host 1 (reel 0) none) = true) ∧
      (boxPasses plant .host (.hold .host 1 (box 0) 1 none) 0 = true ∧ boxPasses plant .host (.unhold .host 1 (box 0) none) 0 = true) := by
  decide

/-- ZoneIsEvacuated: each refusal, an empty zone, an item in transit, and an acceptance. -/
theorem test_case_evacuate :
    let e (z : Byte) (loc : Half) := Instr.evacuate .host 1 z loc
    let evac := plant.modZone 3 fun z => { z with evacuating := true }
    let aimed := running (batchOf (.move 0 (some 3) 0 5) [] [] [0])
    let moving := plant.modCarrier 0 fun c => { c with inTransit := true }
    (quiescedPlant.grants .host (e 0 768) = true ∧ quiescedPlant.quiesce ≠ .active) ∧
      (plant.grants .host (e 63 768) = true ∧ (plant.zone 63).cfg.active = false) ∧
      (plant.grants .host (e 0 1024) = true ∧ (plant.zone 0).cfg.active = true ∧
        plant.mapLoc (1024 : Half).toNat = none) ∧
      (plant.grants .host (e 0 255) = true ∧ plant.mapLoc (255 : Half).toNat = some 0) ∧
      (evac.grants .host (e 0 768) = true ∧ evac.mapLoc (768 : Half).toNat = some 3 ∧ (3 : Nat) ≠ 0 ∧
        (evac.zone 3).evacuating = true) ∧
      (aimed.grants .host (e 0 768) = true ∧ aimed.isBatchTarget 0 = true) ∧
      (plant.grants .host (e 2 768) = true ∧ plant.directCarriers 2 = [] ∧ plant.directContainers 2 = [] ∧
        (plant.zone 3).evacuating = false ∧ plant.isBatchTarget 2 = false) ∧
      ((fullPlant .active).grants .host (e 0 768) = true ∧ (fullPlant .active).directCarriers 0 ≠ [] ∧
        8 ≤ (fullPlant .active).batches.length) ∧
      (moving.grants .host (e 0 768) = true ∧ (∃ n ∈ moving.evacuationWalk 0, moving.inTransit (.carrier n) = true)) ∧
      (plant.grants .host (e 0 768) = true ∧ plant.directCarriers 0 ≠ [] ∧ plant.batches.length < 8 ∧
        (∀ n ∈ plant.evacuationWalk 0, plant.inTransit (.carrier n) = false) ∧
        ∀ n ∈ plant.evacuationContainers 0, plant.inTransit (.container n) = false) := by decide

/-- QueriesRead: a lookup of no item, of a carrier and of a container; a zone; a list of residents, whole and from a
slot; the batch list, whole and from an entry; a class. -/
theorem test_case_queries :
    let q (l : Label) := Instr.lookup .host 1 l none
    let b := running (batchOf (.pack 1) [3] [3] [1])
    (plant.grants .host (q (reel 9)) = true ∧ plant.find (reel 9) = none) ∧
      (plant.grants .host (q (reel 0)) = true ∧ plant.find (reel 0) = some (.carrier 0) ∧
        (((plant.granted .host (q (reel 0))).settleStamped 0).carrier 0).isSome = true) ∧
      (plant.grants .host (.lookup .host 1 (box 2) (some 1)) = true ∧ plant.find (box 2) = some (.container 2) ∧
        (plant.container 2).isSome = true) ∧
      (plant.grants .floor (.zoneInfo .floor 1 0) = true ∧ plant.grants .host (.zoneInfo .host 1 63) = true) ∧
      (plant.grants .host (.residents .host 1 0 0) = true ∧ plant.grants .host (.residents .host 1 0 4) = true) ∧
      (b.grants .host (.batchInfo .host 1 none) = true ∧ b.grants .host (.batchInfo .host 1 (some 1)) = true) ∧
      (plant.grants .host (.classInfo .host 1 1) = true) := by decide

/-- Fields of SETCLASS that give the values of the class of 1.7, and others. -/
def classFields (warn : Byte) : ClassFields :=
  { limit := 480, warn := warn, ceiling := 400, bakeRequirement := 120, bakeBudget := 2 }

/-- ClassIsSet: a part that is not ACTIVE; DEFINE of a defined class and of an undefined one. -/
theorem test_case_classDefine :
    let f := classFields 12
    (quiescedPlant.takes .host (.setClassDefine .host 1 1 f) = true ∧
        quiescedPlant.takes .host (.setClassRevise .host 1 1 f) = true ∧
        quiescedPlant.takes .host (.setClassUndefine .host 1 1) = true ∧ quiescedPlant.quiesce ≠ .active) ∧
      plant.quiesce = .active ∧
      (plant.grants .host (.setClassDefine .host 1 1 f) = true ∧ (plant.cls (1 : Byte).toNat).values ≠ none) ∧
      (plant.grants .host (.setClassDefine .host 1 0 f) = true ∧ (plant.cls (0 : Byte).toNat).values = none) := by decide

/-- ClassIsSet: REVISE of an undefined class, to the values it has, of a class not in use, with a full queue, and
queued. -/
theorem test_case_classRevise :
    let r (f : ClassFields) := Instr.setClassRevise .host 1 1 f
    let unused := { plant with classes := [ClassRec.cold, { values := some classFive, inUse := 0, revisions := 1 }] }
    let full := fullPlant .active
    (plant.grants .host (.setClassRevise .host 1 0 (classFields 12)) = true ∧ (plant.cls (0 : Byte).toNat).values = none) ∧
      (plant.grants .host (r (classFields 12)) = true ∧
        (plant.cls (1 : Byte).toNat).values = some (classValuesOf (classFields 12))) ∧
      classFive ≠ classValuesOf (classFields 13) ∧
      (unused.grants .host (r (classFields 13)) = true ∧ (unused.cls (1 : Byte).toNat).values = some classFive ∧
        (unused.cls (1 : Byte).toNat).inUse = 0) ∧
      (full.grants .host (r (classFields 13)) = true ∧ (full.cls (1 : Byte).toNat).values = some classFive ∧
        0 < (full.cls (1 : Byte).toNat).inUse ∧ 8 ≤ full.batches.length) ∧
      (plant.grants .host (r (classFields 13)) = true ∧ (plant.cls (1 : Byte).toNat).values = some classFive ∧
        0 < (plant.cls (1 : Byte).toNat).inUse ∧ plant.batches.length < 8) := by decide

/-- ClassIsSet: UNDEFINE of an undefined class, of one in use, of one with a revision outstanding, and of another. -/
theorem test_case_classUndefine :
    let u := Instr.setClassUndefine .host 1 1
    let with_ (n : Nat) := { plant with classes := [ClassRec.cold, { values := some classFive, inUse := 0, revisions := n }] }
    (plant.grants .host (.setClassUndefine .host 1 0) = true ∧ (plant.cls (0 : Byte).toNat).values = none) ∧
      (plant.grants .host u = true ∧ (plant.cls (1 : Byte).toNat).values ≠ none ∧ 0 < (plant.cls (1 : Byte).toNat).inUse) ∧
      ((with_ 1).grants .host u = true ∧ ((with_ 1).cls (1 : Byte).toNat).values ≠ none ∧
        ((with_ 1).cls (1 : Byte).toNat).inUse = 0 ∧ 0 < ((with_ 1).cls (1 : Byte).toNat).revisions) ∧
      ((with_ 0).grants .host u = true ∧ ((with_ 0).cls (1 : Byte).toNat).values ≠ none ∧
        ((with_ 0).cls (1 : Byte).toNat).inUse = 0 ∧ ((with_ 0).cls (1 : Byte).toNat).revisions = 0) := by decide

/-- The plant with claims: FLOOR on box 0 and HOST on others, so many in all. -/
def claimed (n : Nat) : State :=
  { plant with
    claims :=
      { item := .container 0, link := .floor, seconds := 5 } ::
        (List.range (n - 1)).map fun i => { item := .carrier (100 + i), link := .host, seconds := 9 } }

/-- ClaimAndRelease, CLAIM: no such item, one in transit, another link's claim, a part not ACTIVE (where FLOOR may
claim), a new claim beside 31 others, one more than the table holds, and the link's own claim. -/
theorem test_case_claim :
    let c (l : Link) (n : Nat) := Instr.claim l 1 (box n)
    let moving := plant.modContainer 1 fun x => { x with inTransit := true }
    let s := claimed 31
    let full := claimed 32
    (plant.grants .host (.claim .host 1 (reel 9)) = true ∧ plant.find (reel 9) = none) ∧
      (moving.grants .host (c .host 1) = true ∧ moving.find (box 1) = some (.container 1) ∧
        moving.inTransit (.container 1) = true) ∧
      (s.grants .host (c .host 0) = true ∧ s.inTransit (.container 0) = false ∧
        (s.claimOf (.container 0)).map (·.link) = some .floor) ∧
      (quiescedPlant.grants .host (c .host 1) = true ∧ quiescedPlant.inTransit (.container 1) = false ∧
        quiescedPlant.otherClaim .host (.container 1) = none ∧ quiescedPlant.quiesce ≠ .active) ∧
      (quiescedPlant.grants .floor (c .floor 1) = true ∧ quiescedPlant.claimOf (.container 1) = none) ∧
      (s.grants .host (c .host 1) = true ∧ s.inTransit (.container 1) = false ∧
        s.otherClaim .host (.container 1) = none ∧ s.quiesce = .active ∧ s.claimOf (.container 1) = none ∧
        s.claims.length < 32) ∧
      (full.grants .host (c .host 1) = true ∧ full.otherClaim .host (.container 1) = none ∧
        full.claimOf (.container 1) = none ∧ 32 ≤ full.claims.length) ∧
      (full.grants .floor (c .floor 0) = true ∧ full.inTransit (.container 0) = false ∧
        full.otherClaim .floor (.container 0) = none ∧ full.claimOf (.container 0) ≠ none) := by decide

/-- ClaimAndRelease, RELEASE: no such item, another link's claim, a part not ACTIVE, a claim held and none held. -/
theorem test_case_release :
    let r (l : Link) (n : Nat) := Instr.release l 1 (box n)
    let s := claimed 1
    (plant.grants .host (.release .host 1 (reel 9)) = true ∧ plant.find (reel 9) = none) ∧
      (s.grants .host (r .host 0) = true ∧ s.find (box 0) = some (.container 0) ∧
        (s.claimOf (.container 0)).map (·.link) = some .floor) ∧
      (quiescedPlant.grants .host (r .host 1) = true ∧ quiescedPlant.otherClaim .host (.container 1) = none ∧
        quiescedPlant.quiesce ≠ .active) ∧
      (s.grants .floor (r .floor 0) = true ∧ s.otherClaim .floor (.container 0) = none ∧ s.claimOf (.container 0) ≠ none) ∧
      (s.grants .host (r .host 1) = true ∧ s.otherClaim .host (.container 1) = none ∧ s.quiesce = .active ∧
        s.claimOf (.container 1) = none) := by decide

/-- CaptureAndWatch: SET with and without a block byte; ARM with a mask, with a match held and with no mask; DISARM,
CAPREAD and CAPCLEAR; a record held and none. -/
theorem test_case_watch :
    let masked := { plant with watch := { plant.watch with mask := 5 } }
    let held := { masked with
      capture := some
        { kind := .watchMatch, source := .batch, label := some (reel 0), loc := some 5, zone := some 0, stamp := none,
          blocked := some false } }
    (plant.takes .host (.watchSet .host 1 512 8 7 none) = true ∧
        plant.takes .host (.watchSet .host 1 512 8 7 (some 1)) = true) ∧
      (masked.takes .host (.watchArm .host 1) = true ∧ masked.heldMatch = false ∧ masked.watch.mask ≠ 0) ∧
      (held.takes .host (.watchArm .host 1) = true ∧ held.heldMatch = true) ∧
      (plant.takes .host (.watchArm .host 1) = true ∧ plant.watch.mask = 0) ∧
      (plant.takes .host (.watchDisarm .host 1) = true ∧ plant.takes .host (.capRead .host 1) = true ∧
        plant.takes .host (.capClear .host 1) = true) ∧
      plant.capture ≠ none ∧ ({ plant with capture := none } : State).capture = none := by decide

/-- An alert of a kind on a batch, or for SPENT on an item. -/
def alertOn (kind : AlertKind) (n : Nat) : Alert :=
  { kind := kind, subject := .item (.carrier n) (reel n), retired := false, stamp := none, count := 254, value := none }

/-- A full Alert Queue: one entry of a kind and 127 SPENT entries. -/
def fullAlerts (kind : AlertKind) : State :=
  { plant with alerts := alertOn .spent 0 :: alertOn kind 1 :: (List.range 126).map fun n => alertOn .spent (n + 2) }

/-- AlertIsRaised: an entry of the kind and subject, an outage beside another, room for one more, an entry of lower
rank to go, and none. -/
theorem test_case_raise :
    let outage : Alert :=
      { kind := .outage, subject := .powerController, retired := false, stamp := none, count := 1,
        value := some (.minutes 4294967290) }
    let few := { plant with alerts := [outage, alertOn .warned 0] }
    let some127 := { plant with alerts := (fullAlerts .spent).alerts.tail }
    (few.alerts = [outage] ++ alertOn .warned 0 :: [] ∧ (alertOn .warned 0).isFor .warned (.item (.carrier 0) (reel 0)) = true ∧
        (∀ b ∈ [outage] ++ [], b.isFor .warned (.item (.carrier 0) (reel 0)) = false) ∧
        ∀ a ∈ few.alerts, a.supersededBy .warned (.item (.carrier 0) (reel 0)) = false) ∧
      (few.alerts = [] ++ outage :: [alertOn .warned 0] ∧ outage.isFor .outage .powerController = true ∧
        ∀ a ∈ few.alerts, a.supersededBy .outage .powerController = false) ∧
      ((∀ a ∈ some127.alerts, a.isFor .warned (.item (.carrier 0) (reel 0)) = false) ∧ some127.alerts.length = 127) ∧
      ((∀ a ∈ (fullAlerts .bakeDone).alerts, a.isFor .warned (.item (.carrier 300) (reel 0)) = false) ∧
        (fullAlerts .bakeDone).alerts.length = 128 ∧ AlertKind.bakeDone.rank < AlertKind.warned.rank ∧
        (∀ b ∈ (fullAlerts .bakeDone).alerts.take 1, AlertKind.bakeDone.rank < b.kind.rank) ∧
        ∀ b ∈ (fullAlerts .bakeDone).alerts.drop 2, AlertKind.bakeDone.rank ≤ b.kind.rank) ∧
      ((∀ a ∈ (fullAlerts .spent).alerts, a.isFor .warned (.item (.carrier 300) (reel 0)) = false) ∧
        128 ≤ (fullAlerts .spent).alerts.length ∧
        ∀ a ∈ (fullAlerts .spent).alerts, AlertKind.warned.rank ≤ a.kind.rank) := by decide

/-- AlertsAreReturned: with no maximum, with 1 and with 8. -/
theorem test_case_alerts :
    plant.takes .host (.alerts .host 1 none) = true ∧ plant.takes .host (.alerts .host 1 (some 1)) = true ∧
      plant.takes .host (.alerts .host 1 (some 8)) = true := by decide

/-- A step of a kind is granted, as a Bool. -/
def stepsTo (k : StepKind) (b : Batch) : Bool := (running b).quiet && decide ((running b).grantedStep k = some b)

theorem stepsTo_iff (k : StepKind) (b : Batch) : stepsTo k b = true ↔ (running b).stepsNow k b := by
  simp [stepsTo, State.stepsNow]

/-- BatchCarrierSteps, a MOVE or EVACUATE: a carrier with no container that passes, a nested one that stays in its
zone, one that a gated zone turns away with a container and without. -/
theorem test_case_moveCarrierStep :
    let b := batchOf (.evacuate 0 2 520) [0] [0] []
    let m := batchOf (.move 1 (some 0) 0 9) [3] [3] [1]
    let spent (n : Nat) (p : Parent) (z t loc : Nat) : State :=
      { running (batchOf (.evacuate z t loc) [n] [n] []) with
        carriers := [(n, { carrierOf (some p) (some z) .accrue false with life := .spent })] }
    let out := spent 0 (.place 0 5) 0 2 520
    let nested := spent 3 (.container 1) 0 3 800
    (stepsTo .moveCarrier b = true ∧ ((running b).carrier 0).isSome = true ∧ b.job.target = (2, 520) ∧
        ((running b).zone 2).cfg.gated = false ∧ (((running b).carrier 0).map fun c => ((running b).settled c).1.life) = some .fresh ∧
        (running b).watchMatches .batch 520 = false) ∧
      (stepsTo .moveCarrier m = true ∧ m.job.target = (0, 9) ∧ ((running m).zone 0).cfg.gated = false ∧
        ((running m).zone 0).cfg.kind ≠ .oven ∧ (running m).watchMatches .batch 9 = false ∧
        ((running m).carrier 3).map (fun c => (Parent.container? c.parent, c.zone)) = some (some 1, some 0)) ∧
      (out.quiet = true ∧ (out.grantedStep .moveCarrier).isSome = true ∧ (out.zone 2).cfg.kind = .oven ∧
        (out.carrier 0).map (fun c => (out.settled c).1.life) = some .spent) ∧
      (nested.quiet = true ∧ (nested.grantedStep .moveCarrier).isSome = true ∧ (nested.zone 3).cfg.gated = true ∧
        (nested.carrier 3).map (fun c => ((nested.settled c).1.life, Parent.container? c.parent)) = some (.spent, some 1)) := by
  decide

/-- BatchCarrierSteps, PACK and UNPACK and REPARENT: the mode of the new chain, which differs and does not. -/
theorem test_case_chainCarrierStep :
    let k := batchOf (.pack 1) [3] [3] [1]
    let u := batchOf (.unpack 4) [4] [4] [4]
    let j := batchOf (.nesting 1 2) [3] [3] [1]
    let l := batchOf (.unnesting 4) [4] [4] [4]
    stepsTo .packCarrier k = true ∧ stepsTo .packCarrier u = true ∧ stepsTo .reparentCarrier j = true ∧
      stepsTo .reparentCarrier l = true ∧
      ((running k).carrier 3).map (fun c => ((running k).modeIn c.zone (c.packed ||
        ((running k).chainOfParent c.parent).any fun x =>
          if x = k.job.packing.1 then k.job.packing.2 else (running k).packedFlag x), c.mode)) = some (.still, .accrue) ∧
      ((running u).carrier 4).map (fun c => ((running u).modeIn c.zone (c.packed ||
        ((running u).chainOfParent c.parent).any fun x =>
          if x = u.job.packing.1 then u.job.packing.2 else (running u).packedFlag x), c.mode)) = some (.still, .still) ∧
      j.job.reparent = (1, some 2) ∧ l.job.reparent = (4, none) := by decide

/-- BatchCarrierSteps, a CLASS_REVISION: a slot of the class, a free slot, the last but one and the last. -/
theorem test_case_revisionStep :
    let b (n : Nat) := { batchOf (.revision 1) [] [] [] with done := n }
    stepsTo .revision (b 0) = true ∧ ((running (b 0)).carrier 0).map (·.cls) = some 1 ∧
      stepsTo .revision (b 4094) = true ∧ stepsTo .revision (b 4095) = true ∧ (running (b 4095)).carrier 4095 = none ∧
      (4094 : Nat) < 4095 := by decide

/-- BatchFinalSteps: MOVE, EVACUATE, PACK, UNPACK and both directions of REPARENT. -/
theorem test_case_finalStep :
    let m := batchOf (.move 1 (some 0) 1 300) [] [3] [1]
    let e := batchOf (.evacuate 0 1 300) [] [0] [0]
    let k := batchOf (.pack 1) [] [3] [1]
    let j := batchOf (.nesting 1 2) [] [3] [1]
    let l := batchOf (.unnesting 4) [] [4] [4]
    (stepsTo .moveFinal m = true ∧ m.job.target = (1, 300) ∧ m.job.source ≠ some 1 ∧ 1 < (running m).zones.length ∧
        ((running m).container 1).isSome = true) ∧
      (stepsTo .moveFinal e = true ∧ e.job.source = some 0 ∧ (0 : Nat) ≠ 1) ∧
      (stepsTo .packFinal k = true ∧ ((running k).container k.job.packing.1).isSome = true) ∧
      (stepsTo .packFinal (batchOf (.unpack 2) [] [4] [2]) = true ∧ stepsTo .reparentFinal j = true ∧
        stepsTo .reparentFinal l = true) := by decide

/-- BatchFinalSteps: the watch sees the top-level container of a MOVE arrive, its block option set or not (R131). -/
theorem test_final_watch :
    let b := batchOf (.move 1 (some 0) 1 300) [] [3] [1]
    let s (block : Bool) := { running b with
      capture := none, watch := { base := 256, k := 8, mask := 7, block := block, armed := true } }
    ([false, true].all fun block => match exec .moveFinalStep (s block) with
      | .next t => decide (t.capture.map (·.kind) = some .watchMatch ∧ t.batches = [] ∧
          (t.container 1).map (·.zone) = some (some 1))
      | _ => false) = true := by decide

/-- A state at the arbiter: a mode, a count of port grants, the links owed, and a request in each hand or not. -/
def atArbiter (b : Bool) (mode : ArbiterMode) (count : Nat) (owed : List Link) (host floor : Bool) : State :=
  let s := if b then running (batchOf (.pack 1) [3] [3] [1]) else plant
  let hand (l : Link) (w : Bool) := if w then some (Hand.waiting (.lookup l 1 (reel 0) none)) else none
  { s with
    settings := { s.settings with arbiterMode := mode }
    portCount := count
    owed := owed
    hostLink := { s.hostLink with hand := hand .host host }
    floorLink := { s.floorLink with hand := hand .floor floor } }

/-- Receiving, no zone due, and a batch that runs or not. -/
def arbitrable (s : State) (b : Bool) : Bool := s.receiving && s.dueZone.isNone && decide (s.runningBatch.isSome = b)

/-- ArbiterChooses: nobody; a due zone; no batch, each pair of ports; each mode with a batch, the count at 7 and 8; a port
that may have held the store over a minute event. -/
theorem test_case_arbiter :
    let s := atArbiter
    let due := plant.modZone 0 fun z => { z with e := 7, eList := [{ slot := 0, key := 7 }] }
    let two (x : State) := (x.portWaiting .host, x.portWaiting .floor)
    State.unpowered.receiving = false ∧ (due.receiving = true ∧ due.dueZone ≠ none) ∧
      ([(false, false), (true, false), (false, true), (true, true)].all fun p =>
        arbitrable (s false .portsFirst 0 [] p.1 p.2) false && decide (two (s false .portsFirst 0 [] p.1 p.2) = p) &&
          arbitrable (s true .portsFirst 7 [] p.1 p.2) true && decide (two (s true .portsFirst 7 [] p.1 p.2) = p)) = true ∧
      arbitrable (s true .batchFirst 0 [] true true) true = true ∧
      (arbitrable (s true .portsFirst 8 [] true true) true = true ∧ 8 ≤ (s true .portsFirst 8 [] true true).portCount) ∧
      (arbitrable (s true .batchExclusive 0 [.floor] true false) true = true ∧
        two (s true .batchExclusive 0 [.floor] true false) = (true, false)) ∧
      (arbitrable (s true .batchExclusive 0 [.host, .floor] true true) true = true ∧
        two (s true .batchExclusive 0 [.host, .floor] true true) = (true, true) ∧
        (s true .batchExclusive 0 [.host, .floor] true true).lastServed = otherLink .host) ∧
      (({ due with heldOver := .port .host } : State).receiving = true ∧
        ({ due with heldOver := .port .host } : State).awards (.port .host) = true ∧ due.awards (.port .host) = false) := by
  decide

/-- A LOOKUP in the Host Link's hand, and a key of its carrier one minute away. -/
def lookingUp : State :=
  let z :=
    { zoneOf .floor 0 8 false with
      e := 5740, eRate := 20, stale := false, mode := .normal, countdown := 9, eList := [{ slot := 0, key := 5760 }] }
  { plant with zones := [z] }.holding .host (.lookup .host 1 (reel 0) none)

/-- 2.9: a minute event makes the key due beneath the LOOKUP, which may have held the store over it (R36, R43). -/
theorem test_heldOver :
    lookingUp.minute.arbitrate = .drain ∧ lookingUp.minute.heldOver = .port .host ∧
      lookingUp.minute.dueZone = some 0 := by decide

/-- The LOOKUP then settles its carrier first, and no drain is left to do (R43). -/
theorem test_heldOver_settles :
    (match exec (.lookup .host 1 (reel 0) none) lookingUp.minute with
      | .next t => decide ((t.carrier 0).map (·.life) = some .warned)
      | _ => false) = true ∧
      (match exec (.lookup .host 1 (reel 0) none) lookingUp.minute with
        | .next t => decide (t.dueZone = none ∧ t.heldOver = .none)
        | _ => false) = true := ⟨by decide, by decide⟩

/-- StoreKeepsItsForm, ExposureIsConserved and IntegralsNeverDecrease: the reset state, where they hold, steps, and a
minute event is none of the starts. -/
theorem test_case_invariants :
    step State.reset = .next State.reset.idle ∧ (∃ t, exec .minuteEvent State.reset = .next t) ∧
      (∀ pins, Instr.minuteEvent ≠ .coldStart pins) ∧ Instr.minuteEvent ≠ .retainEntry false ∧
      Instr.minuteEvent ≠ .mainPowerLoss false ∧ Instr.minuteEvent ≠ .backupLoss ∧ State.reset.pending.head? = none :=
  ⟨rfl, ⟨_, rfl⟩, fun _ h => Instr.noConfusion h, by decide, by decide, by decide, rfl⟩

/-- SpentStaysSpent: a store with a SPENT carrier in an oven, and a step after which its slot is live. -/
theorem test_case_spent :
    let s := { plant with carriers := [(0, { carrierOf (some (.place 2 512)) (some 2) .bake false with life := .spent })] }
    let c := Instr.lookup .host 1 (reel 0) none
    (tabWf s.carriers = true ∧ tabWf s.containers = true ∧ (∀ e ∈ s.carriers, e.1 < 4096) ∧
      ∀ e ∈ s.containers, e.1 < 512) ∧
      (s.carrier 0).map (·.life) = some .spent ∧
      (match step { s with pending := [c] } with
        | .next t => (t.carrier 0).map (·.life)
        | _ => none) = some .spent := by decide

theorem test_case_conserved :
    (∀ e ∈ State.reset.carriers, e.2.conserved ∧ e.2.closed.length ≤ Config.segmentLimit) ∧
      State.reset.zones.length = 64 ∧ tabWf State.reset.carriers = true ∧
      ∀ z ∈ State.reset.zones, z.eList = [] ∧ z.pList = [] := by
  refine ⟨fun e h => absurd h List.not_mem_nil, rfl, rfl, ?_⟩
  decide

end Sys2Proof.Tests
end

/-! PROOFS. Chapter 1, carrier accounts: bake completions (R11) and threshold evaluation (R13). -/

namespace Sys2Proof.Machine

/-! The alerts a raising leaves -/

/-- The queue a raising leaves is formed from the queue and the clock alone (R170 to R172). -/
theorem State.alerts_raise_congr {s t : State} (k : AlertKind) (subj : Subject) (x : Option AlertValue)
    (halerts : t.alerts = s.alerts) (hclock : t.clock = s.clock) :
    (t.raise k subj x).alerts = (s.raise k subj x).alerts := by
  simp only [State.raise, halerts, hclock, apply_ite State.alerts]

theorem State.alerts_raiseAll_congr {s t : State} (ks : List AlertKind) (subj : Subject)
    (halerts : t.alerts = s.alerts) (hclock : t.clock = s.clock) :
    (t.raiseAll ks subj).alerts = (s.raiseAll ks subj).alerts := by
  induction ks generalizing s t with
  | nil => exact halerts
  | cons k ks ih =>
    exact ih (State.alerts_raise_congr k subj none halerts hclock) (by simp [hclock])

/-- A settle raises its alerts, in their order, on the queue it finds: the account's own changes do not meet it (R8). -/
theorem State.alerts_settle (s : State) (slot : Nat) (c : Carrier) (h : s.carrier slot = some c) :
    (s.settle slot).1.alerts = (s.raiseAll (s.settled c).2 (s.itemSubject (.carrier slot))).alerts := by
  simp only [State.settle, h]
  exact State.alerts_raiseAll_congr _ _ (by simp) (by simp)

/-! Threshold evaluation (R13) -/

section Thresholds

variable {v : ClassValues} {n x : Nat} {life : Life}

theorem limited_iff : v.limited = true ↔ v.limit ≠ 0 := by simp [ClassValues.limited]

theorem evaluate_unlimited (h : v.limit = 0) : evaluate v n x life = life := by
  simp [evaluate, limited_iff, h]

theorem evaluate_spent : evaluate v n x .spent = .spent := by
  simp [evaluate]

/-- An EXPIRED carrier: the exposure has no part in it. -/
theorem evaluate_expired (h : v.limit ≠ 0) :
    evaluate v n x .expired = if v.bakeBudget ≤ n then .spent else .expired := by
  simp [evaluate, limited_iff.mpr h]

theorem evaluate_beyond_limit (h : v.limit ≠ 0) (hx : v.limit ≤ x) (hlife : life = .fresh ∨ life = .warned) :
    evaluate v n x life = if v.bakeBudget ≤ n then .spent else .expired := by
  obtain rfl | rfl := hlife
  · simp [evaluate, limited_iff.mpr h, hx]
  · simp [evaluate, limited_iff.mpr h, hx]

theorem evaluate_fresh_below_limit (h : v.limit ≠ 0) (hx : x < v.limit) :
    evaluate v n x .fresh = if v.warnLevel ≤ x then .warned else .fresh := by
  simp [evaluate, limited_iff.mpr h, Nat.not_le.mpr hx]

theorem evaluate_warned_below_limit (hx : x < v.limit) : evaluate v n x .warned = .warned := by
  simp [evaluate, Nat.not_le.mpr hx]

/-- A carrier fresh from a bake stays FRESH, unless the class puts its warning level at 0. -/
theorem evaluate_fresh_zero (h : v.limited = false ∨ 0 < v.warnLevel) : evaluate v n 0 .fresh = .fresh := by
  by_cases hlimit : v.limit = 0
  · exact evaluate_unlimited hlimit
  · have hwarn : 0 < v.warnLevel := h.resolve_left (by simp [limited_iff.mpr hlimit])
    exact (evaluate_fresh_below_limit hlimit (Nat.pos_of_ne_zero hlimit)).trans (if_neg (Nat.not_le.mpr hwarn))

end Thresholds

/-! What a settle evaluates and what it raises (R8, R11, R13) -/

section Settle

variable (v : ClassValues) (e p : Nat) (clock : Option Word) (minute : Word) (c : Carrier)

/-- The life status that threshold evaluation finds at a settle: FRESH after a bake completion, and else the status
held (R11, R13). -/
def lifeBefore : Life := if bakeReady v (charge e p c) then .fresh else c.life

@[simp] theorem charge_life : (charge e p c).life = c.life := rfl

/-- A settle evaluates the thresholds on the exposure and the bake count it leaves. -/
theorem settleRecord_life :
    (settleRecord v e p clock minute c).1.life =
      evaluate v (settleRecord v e p clock minute c).1.bakeCount (settleRecord v e p clock minute c).1.base
        (lifeBefore v e p c) := by
  cases h : bakeReady v (charge e p c) with
  | false =>
    obtain ⟨hbase, -, -, -, hcount, -, hlife⟩ := settleRecord_unbaked (clock := clock) (minute := minute) h
    simp [hlife, hcount, hbase, lifeBefore, h]
  | true =>
    obtain ⟨hbase, -, -, -, hcount, -, hlife⟩ := settleRecord_baked (clock := clock) (minute := minute) h
    simp [hlife, hcount, hbase, lifeBefore, h]

/-- The alerts of a settle, in order: BAKE_DONE, RECOVERED, then that of a new life status. -/
theorem settleRecord_alerts :
    (settleRecord v e p clock minute c).2 =
      (if bakeReady v (charge e p c) then [.bakeDone] else []) ++
        (if c.mode = .rest ∧ (settleRecord v e p clock minute c).1.base = 0 ∧ 0 < c.base then [.recovered] else []) ++
        (if (settleRecord v e p clock minute c).1.life = lifeBefore v e p c then []
          else lifeAlert (settleRecord v e p clock minute c).1.life) := by
  cases h : bakeReady v (charge e p c) with
  | false => simp [settleRecord, lifeBefore, h, and_assoc]
  | true => simp [settleRecord, lifeBefore, h, completeBake]

theorem bakeDone_notMem_lifeAlert (life : Life) : AlertKind.bakeDone ∉ lifeAlert life := by
  cases life <;> simp [lifeAlert]

/-- BAKE_DONE is raised by a bake completion alone. -/
theorem bakeDone_mem_settleRecord :
    AlertKind.bakeDone ∈ (settleRecord v e p clock minute c).2 ↔ bakeReady v (charge e p c) = true := by
  have hlife := bakeDone_notMem_lifeAlert (settleRecord v e p clock minute c).1.life
  rw [settleRecord_alerts]
  simp [hlife, List.mem_ite_nil_right]

end Settle

/-- Settles O16: the branch of a completion is `settleRecord_baked`, the other `settleRecord_unbaked`. -/
theorem bakeCompletion : Obligations.BakeCompletion := by
  rintro v e p clock minute c k t rfl rfl
  have hready := bakeReady_charge v e p c
  have hdone := bakeDone_mem_settleRecord v e p clock minute c
  refine ⟨fun hbake => ?_, fun hbake => ?_, fun s slot h => ?_⟩
  · have hbaked := hready.mpr hbake
    obtain ⟨hbase, hprogress, hcarried, hclosed, hcount, hseg, hlife⟩ :=
      settleRecord_baked (clock := clock) (minute := minute) hbaked
    obtain ⟨-, -, hbudget, -⟩ := hbake
    exact ⟨hbase, hcarried, hclosed, hseg, hcount, hcount.trans_le hbudget, hprogress,
      fun hw => hlife.trans (evaluate_fresh_zero hw), hdone.mpr hbaked⟩
  · have hunbaked : ¬bakeReady v (charge e p c) = true := fun hb => hbake (hready.mp hb)
    obtain ⟨hbase, hprogress, hcarried, hclosed, hcount, hseg, -⟩ :=
      settleRecord_unbaked (clock := clock) (minute := minute) (Bool.eq_false_of_not_eq_true hunbaked)
    exact ⟨hbase, hcarried, hclosed, hseg, hcount, hprogress, fun hmem => hunbaked (hdone.mp hmem)⟩
  · exact s.alerts_settle slot c h

/-- Settles O17: each row is a lemma on `evaluate`, and `settleRecord_life` and `settleRecord_alerts` say what a settle
does with it. -/
theorem thresholdTable : Obligations.ThresholdTable := by
  refine ⟨fun f => ⟨rfl, rfl⟩, fun v n x life => ⟨evaluate_unlimited, ?_, ?_, ?_, ?_, ?_, ?_, ?_, ?_⟩, ?_⟩
  · exact fun h hx hn hl => (evaluate_beyond_limit h hx hl).trans (if_neg (Nat.not_le.mpr hn))
  · exact fun h hx hn hl => (evaluate_beyond_limit h hx hl).trans (if_pos hn)
  · rintro h hn rfl
    exact (evaluate_expired h).trans (if_pos hn)
  · rintro h hn rfl
    exact (evaluate_expired h).trans (if_neg (Nat.not_le.mpr hn))
  · rintro h hx hw rfl
    exact (evaluate_fresh_below_limit h hx).trans (if_pos hw)
  · rintro h hx hw rfl
    exact (evaluate_fresh_below_limit h hx).trans (if_neg (Nat.not_le.mpr hw))
  · rintro - hx rfl
    exact evaluate_warned_below_limit hx
  · rintro rfl
    exact evaluate_spent
  · rintro v e p clock minute c k t before rfl rfl rfl
    refine ⟨settleRecord_life v e p clock minute c, (settleRecord_alerts v e p clock minute c).trans ?_⟩
    cases (settleRecord v e p clock minute c).1.life <;> rfl

end Sys2Proof.Machine

/-! PROOFS. Chapters 2 and 3, zones: the bands of a reading (R61), and the mode and rates of a zone (R30 to R32). -/

namespace Sys2Proof.Machine

/-! Bands (R61) -/

theorem bandOf_le_length (edges : List Int) (v : Int) : bandOf edges v ≤ edges.length :=
  List.length_filter_le _ _

section ZoneRates

variable {g : RateGrid} {staleRate : Nat} {z : Zone} {r : Reading}

/-! Mode (R30, R31) -/

theorem zoneMode_inactive (hactive : z.cfg.active = false) : zoneMode z = .normal := by
  simp [zoneMode, hactive]

theorem zoneMode_stale (hactive : z.cfg.active = true) (hstale : z.stale = true) : zoneMode z = .degraded := by
  simp [zoneMode, hactive, hstale]

/-- The mode of a zone that is not stale follows its door. -/
theorem zoneMode_not_stale (hactive : z.cfg.active = true) (hstale : z.stale = false) :
    zoneMode z = if z.doorDegraded then .degraded else .normal := by
  simp [zoneMode, hactive, hstale]

theorem zoneMode_eq_degraded_iff :
    zoneMode z = .degraded ↔ z.cfg.active = true ∧ (z.stale = true ∨ z.doorDegraded = true) := by
  simp [zoneMode, or_iff_not_imp_left]

/-! Rates by kind from a reading (R32) -/

/-- A FLOOR zone: its door has no part in its rates (R31). -/
theorem readingRates_floor (hkind : z.cfg.kind = .floor) :
    readingRates g z r = (z.cfg.sourced (g.exposureRate r), 0) := by
  simp [readingRates, hkind]

/-- A DRY or OVEN zone with its door held open is charged by the exposure grid, whatever its rate source. -/
theorem readingRates_doorDegraded (hkind : z.cfg.kind ≠ .floor) (hdoor : z.doorDegraded = true) :
    readingRates g z r = (g.exposureRate r, 0) := by
  cases h : z.cfg.kind with
  | floor => exact absurd h hkind
  | dry => simp [readingRates, h, hdoor]
  | oven => simp [readingRates, h, hdoor]

theorem readingRates_dry (hkind : z.cfg.kind = .dry) (hdoor : z.doorDegraded = false) :
    readingRates g z r = (0, z.cfg.sourced (g.recoveryRate r)) := by
  simp [readingRates, hkind, hdoor]

theorem readingRates_oven (hkind : z.cfg.kind = .oven) (hdoor : z.doorDegraded = false) :
    readingRates g z r = (0, z.cfg.sourced (g.bakeRate r)) := by
  simp [readingRates, hkind, hdoor]

theorem readingRates_snd_of_doorDegraded (hdoor : z.doorDegraded = true) : (readingRates g z r).2 = 0 := by
  by_cases hkind : z.cfg.kind = .floor
  · rw [readingRates_floor hkind]
  · rw [readingRates_doorDegraded hkind hdoor]

/-! Rates of a zone (R30, R32) -/

theorem zoneRates_inactive (hactive : z.cfg.active = false) : zoneRates g staleRate z = (0, 0) := by
  simp [zoneRates, hactive]

theorem zoneRates_stale (hactive : z.cfg.active = true) (hstale : z.stale = true) :
    zoneRates g staleRate z = (staleRate, 0) := by
  simp [zoneRates, hactive, hstale]

theorem zoneRates_reading (hactive : z.cfg.active = true) (hstale : z.stale = false) (hreading : z.reading = some r) :
    zoneRates g staleRate z = readingRates g z r := by
  simp [zoneRates, hactive, hstale, hreading]

/-- An active zone without a reading is charged as a stale one (log entry 19). -/
theorem zoneRates_no_reading (hactive : z.cfg.active = true) (hreading : z.reading = none) :
    zoneRates g staleRate z = (staleRate, 0) := by
  simp [zoneRates, hactive, hreading]

/-- A DEGRADED zone recovers and bakes nothing, be it stale or its door held open. -/
theorem zoneRates_snd_of_degraded (h : zoneMode z = .degraded) : (zoneRates g staleRate z).2 = 0 := by
  obtain ⟨hactive, hcause⟩ := zoneMode_eq_degraded_iff.mp h
  cases hstale : z.stale with
  | true => rw [zoneRates_stale hactive hstale]
  | false =>
    have hdoor : z.doorDegraded = true := hcause.resolve_left (by simp [hstale])
    cases hreading : z.reading with
    | none => rw [zoneRates_no_reading hactive hreading]
    | some r => rw [zoneRates_reading hactive hstale hreading, readingRates_snd_of_doorDegraded hdoor]

/-! Recomputing (R33) -/

/-- Recomputing a zone writes the mode of R31 and the rates of R32, and nothing else. -/
theorem State.recompute_eq (s : State) {m : ZoneMode} {e p : Nat} (hmode : zoneMode z = m)
    (hrates : zoneRates s.grid s.settings.staleRate z = (e, p)) :
    s.recompute z = { z with mode := m, eRate := e, pRate := p } := by
  simp [State.recompute, hmode, hrates]

end ZoneRates

/-- Settles O22: `State.recompute_eq` at an inactive zone, at a stale one, and at each row of R32's table, a lemma on
`readingRates` for each. -/
theorem zoneRatesTable : Obligations.ZoneRatesTable := by
  refine ⟨fun s z hactive => s.recompute_eq (zoneMode_inactive hactive) (zoneRates_inactive hactive),
    fun s z hactive hstale => s.recompute_eq (zoneMode_stale hactive hstale) (zoneRates_stale hactive hstale),
    ?_, bandOf_le_length, fun s z h => zoneRates_snd_of_degraded h⟩
  rintro s z r t h e p hactive hstale hreading rfl rfl hfloor hdegraded hdry hoven
  refine s.recompute_eq (zoneMode_not_stale hactive hstale) ((zoneRates_reading hactive hstale hreading).trans ?_)
  by_cases hkind : z.cfg.kind = .floor
  · obtain ⟨rfl, rfl⟩ := hfloor hkind
    exact readingRates_floor hkind
  · cases hdoor : z.doorDegraded with
    | true =>
      obtain ⟨rfl, rfl⟩ := hdegraded hkind hdoor
      exact readingRates_doorDegraded hkind hdoor
    | false =>
      cases h : z.cfg.kind with
      | floor => exact absurd h hkind
      | dry =>
        obtain ⟨rfl, rfl⟩ := hdry h hdoor
        exact readingRates_dry h hdoor
      | oven =>
        obtain ⟨rfl, rfl⟩ := hoven h hdoor
        exact readingRates_oven h hdoor

end Sys2Proof.Machine

/-! PROOFS. Chapter 4, enrolment and movement: the Label Directory across starts, resets and ERASE (R67). -/

namespace Sys2Proof.Machine

/-! What the acts of a start, a reset and a power loss do to the directory -/

section Acts

variable (s : State)

@[simp] theorem State.takeDue_directory : s.takeDue.directory = s.directory := by
  rw [State.takeDue_eta]

@[simp] theorem State.raiseFault_directory (kind : CaptureKind) (source : CaptureSource) (label : Option Label)
    (loc zone : Option Nat) : (s.raiseFault kind source label loc zone).directory = s.directory := by
  obtain ⟨_, _, _, _, h⟩ := s.raiseFault_eta kind source label loc zone
  rw [h]

@[simp] theorem State.raiseOutage_directory (m : Nat) : (s.raiseOutage m).directory = s.directory := by
  unfold State.raiseOutage
  split
  · exact State.raise_directory ..
  · rfl

@[simp] theorem State.coldStart_directory (pins : StartPins) : (s.coldStart pins).directory = [] :=
  State.raiseFault_directory ..

/-- The acts of R195 write the zones and the volatile state; the OUTAGE that ends them goes to the Alert Queue. -/
@[simp] theorem State.warmStart_directory (kind : StartKind) (pins : StartPins) :
    (s.warmStart kind pins).directory = s.directory :=
  State.raiseOutage_directory ..

@[simp] theorem State.assertReset_directory : s.assertReset.directory = s.directory := rfl

@[simp] theorem State.toRetain_directory : s.toRetain.directory = s.directory := rfl

@[simp] theorem State.erase_directory : s.erase.directory = [] := rfl
@[simp] theorem State.erase_carriers : s.erase.carriers = [] := rfl
@[simp] theorem State.erase_containers : s.erase.containers = [] := rfl

end Acts

/-! What the end of a grant leaves alone -/

section Ends

variable (s : State) (l : Link) (kind tag : Byte) (result : List Byte)

@[simp] theorem State.ends_directory : (s.ends l kind tag result).directory = s.directory := by
  simp [State.ends, State.replies]

@[simp] theorem State.ends_carriers : (s.ends l kind tag result).carriers = s.carriers := by
  simp [State.ends, State.replies]

@[simp] theorem State.ends_containers : (s.ends l kind tag result).containers = s.containers := by
  simp [State.ends, State.replies]

end Ends

/-! The commands -/

section Commands

variable {s : State}

theorem execColdStart_of_startsCold (h : s.startsCold = true) (pins : StartPins) :
    execColdStart pins s = .next (s.coldStart pins) := by
  simp [execColdStart, h]

theorem execWarmStart_of_retain (hpower : s.power = .retain) (hcheck : s.checkWord = true) (pins : StartPins) :
    execWarmStart pins s = .next (s.warmStart .warm pins) := by
  simp [execWarmStart, hpower, hcheck]

/-- RESETn keeps the directory, be it taken or without effect (R196). -/
theorem execResetAsserted_directory (s : State) :
    ∃ t, execResetAsserted s = .next t ∧ t.directory = s.directory := by
  refine ⟨_, rfl, ?_⟩
  split
  · exact s.takeDue.assertReset_directory.trans s.takeDue_directory
  · exact s.takeDue_directory

/-- The release of RESETn keeps the directory, be it taken or without effect (R196). -/
theorem execResetReleased_directory (s : State) (pins : StartPins) :
    ∃ t, execResetReleased pins s = .next t ∧ t.directory = s.directory := by
  refine ⟨_, rfl, ?_⟩
  split
  · exact s.warmStart_directory .reset pins
  · rfl

/-- With VBACK at its level the entry to RETAIN keeps the directory, and so does one that has to wait (R191, R193). -/
theorem execRetainEntry_directory (s : State) :
    ∃ t, execRetainEntry true s = .next t ∧ t.directory = s.directory := by
  refine ⟨_, rfl, ?_⟩
  split
  · exact s.takeDue.toRetain_directory.trans s.takeDue_directory
  · exact s.takeDue_directory

/-- The Batch Unit accepts ERASE in a part that is QUIESCED with no batch (R140). -/
theorem ownErase_accepted (hquiesce : s.quiesce = .quiesced) (hbatches : s.batches = []) :
    ownErase s = (s.erase, [stDone]) := by
  simp [ownErase, hquiesce, hbatches]

/-- A granted ERASE that is accepted: the tables go, the reply is DONE, the store frees (R140). -/
theorem execErase_accepted {l : Link} {tag : Byte} (h : s.grants l (.erase l tag) = true)
    (hquiesce : s.quiesce = .quiesced) (hbatches : s.batches = []) :
    execErase l tag s =
      .next ((s.granted l (.erase l tag)).erase.ends l (kindCode (.erase l tag)) tag [stDone]) := by
  have hown := ownErase_accepted (s := s.granted l (.erase l tag)) (by simp [hquiesce]) (by simp [hbatches])
  rw [execErase, serve_granted rfl h, hown]

end Commands

/-- Settles O10: a cold start and an accepted ERASE leave the directory empty, and every other start and reset is made
of acts that do not write it. -/
theorem directoryAcrossStarts : Obligations.DirectoryAcrossStarts := by
  refine ⟨fun s pins hcold => ?_, fun s pins hpower hcheck => ?_, execResetAsserted_directory,
    execResetReleased_directory, execRetainEntry_directory, fun s tag hgrant hquiesce hbatches => ?_⟩
  · exact ⟨_, execColdStart_of_startsCold hcold pins, s.coldStart_directory pins⟩
  · exact ⟨_, execWarmStart_of_retain hpower hcheck pins, s.warmStart_directory .warm pins⟩
  · exact ⟨_, execErase_accepted hgrant hquiesce hbatches, by simp, by simp, by simp⟩

end Sys2Proof.Machine

/-! PROOFS. Chapter 7, batches and the Store Arbiter: RESUME on both links and in every quiesce state (R138). -/

namespace Sys2Proof.Machine

/-! The RUNNING batch (R124) and the step that waits with it (R143) -/

section Running

variable {s : State}

theorem State.runningBatch_eq_head (h : s.quiesce ≠ .quiesced) : s.runningBatch = s.batches.head? := if_neg h

theorem State.stepWaiting_eq_not_isEmpty (h : s.quiesce ≠ .quiesced) : s.stepWaiting = !s.batches.isEmpty := by
  rw [State.stepWaiting, State.runningBatch_eq_head h]
  cases s.batches <;> rfl

end Running

/-! What the end of a grant leaves of the Batch Unit -/

section EndsBatchUnit

variable (s : State) (l : Link) (kind tag : Byte) (result : List Byte)

@[simp] theorem State.ends_batches : (s.ends l kind tag result).batches = s.batches := by
  simp [State.ends, State.replies]

@[simp] theorem State.ends_quiesce : (s.ends l kind tag result).quiesce = s.quiesce := by
  simp [State.ends, State.replies]

end EndsBatchUnit

/-- A request kind its link does not permit is answered NOT_PERMITTED, whatever its owner would do (R183). -/
theorem serve_not_permitted {s : State} {l : Link} {c : Instr} {tag : Byte} {own : Owner}
    (hreq : requestOf c = some (l, tag)) (hready : s.ready = true) (hfree : (s.link l).free = true)
    (hperm : permitted l (kindCode c) = false) :
    serve l c own s = .next (s.replies l (kindCode c) tag [stNotPermitted]) :=
  serve_refused hreq hready hfree (by simp [judge, hperm, replyTo])

/-! RESUME (R138) -/

section Resume

variable {s : State} {l : Link} {tag : Byte}

theorem ownResume_active (h : s.quiesce = .active) : ownResume s = (s, [stState]) := if_pos h

theorem ownResume_not_active (h : s.quiesce ≠ .active) :
    ownResume s = ({ s with quiesce := .active }, [stDone]) := if_neg h

/-- A granted RESUME that is accepted: the state is ACTIVE, the reply is DONE, the store frees. -/
theorem execResume_accepted (hgrant : s.grants l (.resume l tag) = true) (h : s.quiesce ≠ .active) :
    execResume l tag s =
      .next ({ s.granted l (.resume l tag) with quiesce := .active }.ends l (kindCode (.resume l tag)) tag [stDone]) := by
  have hown := ownResume_not_active (s := s.granted l (.resume l tag)) (by simpa using h)
  rw [execResume, serve_granted rfl hgrant, hown]

/-- A granted RESUME in ACTIVE: the reply is STATE, and the store frees. -/
theorem execResume_refused (hgrant : s.grants l (.resume l tag) = true) (h : s.quiesce = .active) :
    execResume l tag s =
      .next ((s.granted l (.resume l tag)).ends l (kindCode (.resume l tag)) tag [stState]) := by
  have hown := ownResume_active (s := s.granted l (.resume l tag)) (by simpa using h)
  rw [execResume, serve_granted rfl hgrant, hown]

/-- An accepted RESUME keeps every batch record and leaves the state ACTIVE, so the oldest record runs (R124). -/
theorem execResume_accepted_batches {t : State} (hgrant : s.grants l (.resume l tag) = true) (h : s.quiesce ≠ .active)
    (ht : execResume l tag s = .next t) : t.batches = s.batches ∧ t.quiesce = .active := by
  rw [execResume_accepted hgrant h] at ht
  cases ht
  simp

theorem waitsForStore_resume (s : State) (l : Link) (tag : Byte) : s.waitsForStore (.resume l tag) = true := rfl

end Resume

/-- Settles O34: under its grant RESUME is accepted or refused by the quiesce state alone, the running batch is read off
the records it keeps, and on the Floor Link the Frame Engine answers before the store is asked for. -/
theorem resumeMakesActive : Obligations.ResumeMakesActive := by
  refine ⟨fun s tag hgrant h => execResume_accepted hgrant h, fun s t tag hgrant h ht => ?_,
    fun s tag hgrant h => execResume_refused hgrant h, fun s tag hready hhand hbuffer hframe => ?_,
    fun s tag => waitsForStore_resume s .host tag⟩
  · obtain ⟨hbatches, hactive⟩ := execResume_accepted_batches hgrant h ht
    have hruns : t.quiesce ≠ .quiesced := by simp [hactive]
    have hhead : t.runningBatch = s.batches.head? := hbatches ▸ State.runningBatch_eq_head hruns
    refine ⟨hbatches, hhead, hbatches ▸ State.stepWaiting_eq_not_isEmpty hruns, fun hquiescing => ?_⟩
    exact hhead.trans (State.runningBatch_eq_head (by simp [hquiescing])).symm
  · have hfree : (s.link .floor).free = true := by simp [LinkState.free, State.link, hhand, hbuffer, hframe]
    exact serve_not_permitted rfl hready hfree rfl

end Sys2Proof.Machine

/-! PROOFS. Invariants of a run: one relation says what every step keeps of the tables, the queues, the zones and the
accounts. Each operation is shown to meet it once, and the invariants are read off it. -/

namespace Sys2Proof.Machine

-- One proof after another: elaborated side by side, so many short ones outgrow the memory a compile may take.
set_option Elab.async false

/-! Zones: the integrals rise, the deadline lists stay in key order (R34, R37) -/

/-- Both deadline lists of a zone stand in key order. -/
def Zone.ordered (z : Zone) : Prop :=
  (z.eList.map (·.key)).Pairwise (· ≤ ·) ∧ (z.pList.map (·.key)).Pairwise (· ≤ ·)

/-- What a step may make of a zone: no integral lower, and lists in key order still so. -/
structure Zone.evolves (z z' : Zone) : Prop where
  e : z.e ≤ z'.e
  p : z.p ≤ z'.p
  lists : z.ordered → z'.ordered

theorem Zone.evolves_refl (z : Zone) : z.evolves z := ⟨Nat.le_refl _, Nat.le_refl _, id⟩

theorem Zone.evolves.trans {a b c : Zone} (h1 : a.evolves b) (h2 : b.evolves c) : a.evolves c :=
  ⟨h1.e.trans h2.e, h1.p.trans h2.p, h2.lists ∘ h1.lists⟩

/-- A zone whose integrals and lists are the same. -/
theorem Zone.evolves_of_eq {z z' : Zone} (he : z'.e = z.e) (hp : z'.p = z.p) (hel : z'.eList = z.eList)
    (hpl : z'.pList = z.pList) : z.evolves z' :=
  ⟨he.ge, hp.ge, fun h => ⟨hel ▸ h.1, hpl ▸ h.2⟩⟩

theorem mem_insertKey {x e : KeyEntry} : ∀ {l : List KeyEntry}, x ∈ insertKey e l → x = e ∨ x ∈ l
  | [], h => by simpa [insertKey] using h
  | a :: l, h => by
    simp only [insertKey] at h
    split at h
    · simpa using h
    · rcases List.mem_cons.mp h with rfl | h
      · simp
      · exact (mem_insertKey h).imp id (List.mem_cons_of_mem _)

/-- Filing a key keeps the order of a list (R39). -/
theorem insertKey_ordered (e : KeyEntry) : ∀ {l : List KeyEntry}, (l.map (·.key)).Pairwise (· ≤ ·) →
    ((insertKey e l).map (·.key)).Pairwise (· ≤ ·)
  | [], _ => by simp [insertKey]
  | a :: l, h => by
    simp only [List.map_cons, List.pairwise_cons, List.mem_map, forall_exists_index, and_imp,
      forall_apply_eq_imp_iff₂] at h
    simp only [insertKey]
    split
    · next hlt =>
      simp only [List.map_cons, List.pairwise_cons, List.mem_cons, List.mem_map, forall_eq_or_imp, forall_exists_index,
        and_imp, forall_apply_eq_imp_iff₂]
      exact ⟨⟨hlt.le, fun x hx => hlt.le.trans (h.1 x hx)⟩, h⟩
    · next hge =>
      simp only [List.map_cons, List.pairwise_cons, List.mem_map, forall_exists_index, and_imp,
        forall_apply_eq_imp_iff₂]
      refine ⟨fun x hx => ?_, insertKey_ordered e h.2⟩
      rcases mem_insertKey hx with rfl | hx
      · exact Nat.le_of_not_lt hge
      · exact h.1 x hx

theorem insertKeyOpt_ordered (slot : Nat) (key : Option Nat) {l : List KeyEntry}
    (h : (l.map (·.key)).Pairwise (· ≤ ·)) : ((insertKeyOpt slot key l).map (·.key)).Pairwise (· ≤ ·) := by
  cases key with
  | none => exact h
  | some k => exact insertKey_ordered _ h

theorem withdrawSlot_ordered (slot : Nat) {l : List KeyEntry} (h : (l.map (·.key)).Pairwise (· ≤ ·)) :
    ((withdrawSlot slot l).map (·.key)).Pairwise (· ≤ ·) :=
  h.sublist (List.filter_sublist.map _)

section ZoneUpdates

variable (z : Zone) (slot : Nat)

theorem Zone.withdraw_evolves : z.evolves (z.withdraw slot) :=
  ⟨Nat.le_refl _, Nat.le_refl _, fun h => ⟨withdrawSlot_ordered slot h.1, withdrawSlot_ordered slot h.2⟩⟩

theorem Zone.file_evolves (eKey pKey : Option Nat) : z.evolves (z.file slot eKey pKey) :=
  ⟨Nat.le_refl _, Nat.le_refl _, fun h => ⟨insertKeyOpt_ordered slot eKey h.1, insertKeyOpt_ordered slot pKey h.2⟩⟩

theorem Zone.moveLife_evolves (a b : Life) : z.evolves (z.moveLife a b) := by
  unfold Zone.moveLife
  split
  · exact z.evolves_refl
  · exact Zone.evolves_of_eq rfl rfl rfl rfl

theorem Zone.addResident_evolves (a : Life) : z.evolves (z.addResident a) := Zone.evolves_of_eq rfl rfl rfl rfl

theorem Zone.dropResident_evolves (a : Life) : z.evolves (z.dropResident a) := Zone.evolves_of_eq rfl rfl rfl rfl

theorem State.recompute_evolves (s : State) : z.evolves (s.recompute z) := Zone.evolves_of_eq rfl rfl rfl rfl

theorem Zone.minute_evolves : z.evolves z.minute := by
  rw [Zone.minute_eq]
  split
  · exact ⟨Nat.le_add_right _ _, Nat.le_add_right _ _, id⟩
  · exact z.evolves_refl

theorem Zone.erased_evolves : z.evolves z.erased :=
  ⟨Nat.le_refl _, Nat.le_refl _, fun _ => ⟨List.Pairwise.nil, List.Pairwise.nil⟩⟩

/-- The outage charge raises E, and a start changes no list (R195). -/
theorem State.restartZone_evolves (s : State) (m : Nat) : z.evolves (s.restartZone m z) := by
  unfold State.restartZone
  split
  · exact ⟨Nat.le_add_right _ _, Nat.le_refl _, id⟩
  · exact Zone.evolves_of_eq rfl rfl rfl rfl

theorem State.reconfigure_evolves (s : State) (c : ZoneConfig) : z.evolves (s.reconfigure z c) := by
  unfold State.reconfigure State.redoor Zone.undoored
  repeat' split
  all_goals exact Zone.evolves_of_eq rfl rfl rfl rfl

end ZoneUpdates

/-! Carriers: the account stays conserved, and SPENT stays (R5, R22, R23) -/

/-- What a step may make of a live carrier's record. -/
structure Carrier.evolves (c d : Carrier) : Prop where
  conserved : c.conserved → d.conserved
  closed : c.closed.length ≤ Config.segmentLimit → d.closed.length ≤ Config.segmentLimit
  spent : c.life = .spent → d.life = .spent

theorem Carrier.evolves_refl (c : Carrier) : c.evolves c := ⟨id, id, id⟩

theorem Carrier.evolves.trans {a b c : Carrier} (h1 : a.evolves b) (h2 : b.evolves c) : a.evolves c :=
  ⟨h2.conserved ∘ h1.conserved, h2.closed ∘ h1.closed, h2.spent ∘ h1.spent⟩

/-- A record whose account and life status are the same. -/
theorem Carrier.evolves_of_eq {c d : Carrier} (hbase : d.base = c.base) (hcarried : d.carried = c.carried)
    (hclosed : d.closed = c.closed) (hseg : d.openSeg.credits = c.openSeg.credits) (hlife : d.life = c.life) :
    c.evolves d where
  conserved h := by simpa [Carrier.conserved, hbase, hcarried, hclosed, hseg] using h
  closed h := hclosed ▸ h
  spent h := hlife.trans h

/-- A settle keeps the account conserved: the open segment takes the change of exposure, and a bake completion clears
both sides (R10, R11, R23). A SPENT carrier completes no bake and stays SPENT (R5, R11, R13). -/
theorem settleRecord_evolves (v : ClassValues) (e p : Nat) (clock : Option Word) (minute : Word) (c : Carrier) :
    c.evolves (settleRecord v e p clock minute c).1 := by
  cases h : bakeReady v (charge e p c) with
  | false =>
    obtain ⟨hbase, -, hcarried, hclosed, -, hseg, hlife⟩ := settleRecord_unbaked (clock := clock) (minute := minute) h
    refine ⟨fun hc => ?_, fun hc => hclosed ▸ hc, fun hc => ?_⟩
    · simp only [Carrier.conserved, hbase, hcarried, hclosed, hseg] at hc ⊢
      omega
    · rw [hlife, hc, evaluate_spent]
  | true =>
    obtain ⟨hbase, -, hcarried, hclosed, -, hseg, -⟩ := settleRecord_baked (clock := clock) (minute := minute) h
    obtain ⟨-, hlife, -⟩ := (bakeReady_charge v e p c).mp h
    refine ⟨fun _ => ?_, fun _ => ?_, fun hc => absurd hc hlife⟩
    · simp [Carrier.conserved, hbase, hcarried, hclosed, hseg]
    · simp [hclosed]

theorem State.settled_evolves (s : State) (c : Carrier) : c.evolves (s.settled c).1 := settleRecord_evolves ..

/-- Folding the oldest segment into the carried credits keeps their sum (R22). -/
theorem foldSegments_sum (carried : Int) (closed : List ClosedSeg) :
    (foldSegments carried closed).1 + ((foldSegments carried closed).2.map (·.credits)).sum =
      carried + (closed.map (·.credits)).sum := by
  unfold foldSegments
  split
  · cases closed with
    | nil => rfl
    | cons oldest rest => simp [Int.add_assoc]
  · rfl

/-- One segment more than the limit is folded back to it (R22). -/
theorem foldSegments_length (carried : Int) (closed : List ClosedSeg) (h : closed.length ≤ Config.segmentLimit + 1) :
    (foldSegments carried closed).2.length ≤ Config.segmentLimit := by
  unfold foldSegments
  split
  · cases closed with
    | nil => simp
    | cons oldest rest => simpa using h
  · next hle => exact Nat.le_of_not_lt hle

theorem closeSegment_evolves (clock : Option Word) (minute : Word) (zone : Option Nat) (mode : ResMode) (c : Carrier) :
    c.evolves (closeSegment clock minute zone mode c) where
  conserved h := by
    have hsum := foldSegments_sum c.carried (c.closed ++
      [⟨c.openSeg.zone, c.openSeg.mode, c.openSeg.stamp, minute - c.openSeg.entry, c.openSeg.credits⟩])
    simp only [List.map_append, List.map_cons, List.map_nil, List.sum_append, List.sum_cons, List.sum_nil] at hsum
    simp only [Carrier.conserved, closeSegment] at h ⊢
    omega
  closed h := foldSegments_length _ _ (by simpa using h)
  spent h := h

theorem moveRecord_evolves (r : Residence) (e p : Nat) (clock : Option Word) (minute : Word) (c : Carrier) :
    c.evolves (moveRecord r e p clock minute c) := by
  unfold moveRecord
  dsimp only
  split
  · exact (closeSegment_evolves clock minute r.zone r.mode c).trans (Carrier.evolves_of_eq rfl rfl rfl rfl rfl)
  · exact Carrier.evolves_of_eq rfl rfl rfl rfl rfl

/-- A new carrier's account is conserved: its exposure is its carried credits (R2). -/
theorem newCarrier_conserved (cls exposure : Nat) (packed : Bool) (bakes : Nat) (parent : Option Parent)
    (zone : Option Nat) (mode : ResMode) (e p : Nat) (clock : Option Word) (minute : Word) :
    (newCarrier cls exposure packed bakes parent zone mode e p clock minute).conserved := by
  simp [Carrier.conserved, newCarrier]

/-! Sparse tables -/

/-- A table lists each number once, in rising order, and none at or beyond its limit (R1, R88). -/
def tabForm {α : Type} (limit : Nat) (t : List (Nat × α)) : Prop := tabWf t = true ∧ ∀ e ∈ t, e.1 < limit

theorem tabForm_put {α : Type} {limit n : Nat} {x : α} {t : List (Nat × α)} (h : tabForm limit t) (hn : n < limit) :
    tabForm limit (tabPut t n x) :=
  ⟨tabWf_put n x t h.1, fun e he => (mem_tabPut he).elim (fun hx => hx ▸ hn) (h.2 e)⟩

theorem tabForm_del {α : Type} {limit : Nat} (n : Nat) {t : List (Nat × α)} (h : tabForm limit t) :
    tabForm limit (tabDel t n) :=
  ⟨tabWf_del n t h.1, fun e he => h.2 e (mem_tabDel he)⟩

theorem tabForm_nil {α : Type} (limit : Nat) : tabForm limit ([] : List (Nat × α)) := ⟨rfl, by simp⟩

theorem tabGet_eq_none_of_lt {α : Type} {n : Nat} : ∀ {t : List (Nat × α)}, (∀ e ∈ t, n < e.1) → tabGet t n = none
  | [], _ => rfl
  | (k, v) :: t, h => by
    have hk : k ≠ n := (h (k, v) (by simp)).ne'
    simp only [tabGet, hk, if_false]
    exact tabGet_eq_none_of_lt fun e he => h e (List.mem_cons_of_mem _ he)

/-- In a rising table the numbers after the first are beyond it. -/
theorem tabWf_head_lt {α : Type} {k : Nat} {v : α} {t : List (Nat × α)} (h : tabWf ((k, v) :: t) = true) :
    ∀ e ∈ t, k < e.1 := by
  rw [tabWf_iff, List.map_cons, List.pairwise_cons] at h
  exact fun e he => h.1 e.1 (List.mem_map_of_mem he)

theorem tabWf_tail {α : Type} {e : Nat × α} {t : List (Nat × α)} (h : tabWf (e :: t) = true) : tabWf t = true := by
  rw [tabWf_iff, List.map_cons, List.pairwise_cons] at h
  exact (tabWf_iff t).mpr h.2

/-- A deleted number is gone, and no other. -/
theorem tabGet_del {α : Type} (n m : Nat) : ∀ {t : List (Nat × α)}, tabWf t = true →
    tabGet (tabDel t n) m = if m = n then none else tabGet t m
  | [], _ => by simp [tabDel, tabGet]
  | (k, v) :: t, h => by
    have hlt := tabWf_head_lt h
    simp only [tabDel]
    by_cases hk : k = n
    · subst hk
      by_cases hm : m = k
      · subst hm
        simp [tabGet_eq_none_of_lt hlt]
      · simp [hm, tabGet, Ne.symm hm]
    · simp only [hk, if_false, tabGet, tabGet_del n m (tabWf_tail h)]
      by_cases hm : m = n
      · subst hm
        simp [hk]
      · simp [hm]

/-- The number found free is beyond every number below it and before the rest. -/
theorem tabGet_tabFreeFrom {α : Type} : ∀ {t : List (Nat × α)} {n : Nat}, tabWf t = true → (∀ e ∈ t, n ≤ e.1) →
    n ≤ tabFreeFrom n t ∧ tabGet t (tabFreeFrom n t) = none ∧ ∀ m, n ≤ m → m < tabFreeFrom n t → tabGet t m ≠ none
  | [], n, _, _ => ⟨Nat.le_refl _, rfl, fun m h1 h2 => absurd h2 (Nat.not_lt.mpr h1)⟩
  | (k, v) :: t, n, hwf, hle => by
    have hlt := tabWf_head_lt hwf
    simp only [tabFreeFrom]
    by_cases hk : k = n
    · subst hk
      obtain ⟨h1, h2, h3⟩ := tabGet_tabFreeFrom (n := k + 1) (tabWf_tail hwf) hlt
      have hne : k ≠ tabFreeFrom (k + 1) t := by omega
      simp only [if_true, tabGet, hne, if_false]
      refine ⟨by omega, h2, fun m hm1 hm2 => ?_⟩
      by_cases hm : k = m
      · simp [hm]
      · simpa [hm] using h3 m (by omega) hm2
    · have hkn : n < k := Nat.lt_of_le_of_ne (hle (k, v) (by simp)) (Ne.symm hk)
      simp only [hk, if_false, tabGet, le_refl, true_and]
      exact ⟨tabGet_eq_none_of_lt fun e he => hkn.trans (hlt e he), fun m h1 h2 => absurd h2 (Nat.not_lt.mpr h1)⟩

/-- The number a table gives for a new record: the lowest free one, within the limit (R1, R88). -/
theorem tabFree_spec {α : Type} {limit slot : Nat} {t : List (Nat × α)} (hwf : tabWf t = true)
    (h : tabFree limit t = some slot) :
    slot < limit ∧ tabGet t slot = none ∧ ∀ m < slot, tabGet t m ≠ none := by
  unfold tabFree at h
  split at h
  · next hlt =>
    cases h
    obtain ⟨-, h2, h3⟩ := tabGet_tabFreeFrom (n := 0) hwf fun _ _ => Nat.zero_le _
    exact ⟨hlt, h2, fun m hm => h3 m (Nat.zero_le _) hm⟩
  · cases h

theorem tabFree_lt {α : Type} {limit slot : Nat} {t : List (Nat × α)} (h : tabFree limit t = some slot) :
    slot < limit := by
  unfold tabFree at h
  split at h
  · next hlt => cases h; exact hlt
  · cases h

/-! The table of carriers -/

/-- An account in form (R22, R23). -/
def Carrier.inForm (c : Carrier) : Prop := c.conserved ∧ c.closed.length ≤ Config.segmentLimit

/-- What a step may make of the table of carriers. `F` are the slots that were free as the step began: only there a
carrier comes to be, and elsewhere a SPENT carrier stays SPENT until its slot is freed. -/
structure CarriersEvolve (F : Nat → Prop) (cs ds : List (Nat × Carrier)) : Prop where
  form : tabForm Config.carrierSlots cs → tabForm Config.carrierSlots ds
  wf : tabWf cs = true → tabWf ds = true
  inForm : (∀ e ∈ cs, e.2.inForm) → ∀ e ∈ ds, e.2.inForm
  born : tabWf cs = true → ∀ n, ¬F n → tabGet cs n = none → tabGet ds n = none
  spent : tabWf cs = true → ∀ n, ¬F n → ∀ c d, tabGet cs n = some c → c.life = .spent → tabGet ds n = some d →
    d.life = .spent

section Carriers

variable {F : Nat → Prop} {cs ds es : List (Nat × Carrier)}

theorem CarriersEvolve.refl (cs : List (Nat × Carrier)) : CarriersEvolve F cs cs where
  form := id
  wf := id
  inForm := id
  born _ _ _ h := h
  spent _ _ _ c d h1 h2 h3 := by
    rw [h1] at h3
    cases h3
    exact h2

theorem CarriersEvolve.trans (h1 : CarriersEvolve F cs ds) (h2 : CarriersEvolve F ds es) : CarriersEvolve F cs es where
  form := h2.form ∘ h1.form
  wf := h2.wf ∘ h1.wf
  inForm := h2.inForm ∘ h1.inForm
  born hwf n hn h := h2.born (h1.wf hwf) n hn (h1.born hwf n hn h)
  spent hwf n hn c e hc hs he := by
    cases hd : tabGet ds n with
    | none => rw [h2.born (h1.wf hwf) n hn hd] at he; cases he
    | some d => exact h2.spent (h1.wf hwf) n hn d e hd (h1.spent hwf n hn c d hc hs hd) he

/-- A live carrier's record is written. -/
theorem CarriersEvolve.put {n : Nat} {c d : Carrier} (hc : tabGet cs n = some c) (h : c.evolves d) :
    CarriersEvolve F cs (tabPut cs n d) where
  form hf := tabForm_put hf (hf.2 _ (tabGet_mem hc))
  wf hwf := tabWf_put n d cs hwf
  inForm hi e he := by
    rcases mem_tabPut he with rfl | he
    · have hci := hi _ (tabGet_mem hc)
      exact ⟨h.conserved hci.1, h.closed hci.2⟩
    · exact hi e he
  born _ m _ hm := by
    have hmn : m ≠ n := by
      rintro rfl
      rw [hc] at hm
      cases hm
    rwa [tabGet_put_other n m d hmn]
  spent _ m _ c' d' hc' hs hd' := by
    by_cases hmn : m = n
    · subst hmn
      rw [hc] at hc'
      rw [tabGet_put_same] at hd'
      cases hc'
      cases hd'
      exact h.spent hs
    · rw [tabGet_put_other n m d hmn, hc'] at hd'
      cases hd'
      exact hs

/-- A carrier is formed in a slot that was free as the step began. -/
theorem CarriersEvolve.form_new {n : Nat} {d : Carrier} (hn : n < Config.carrierSlots) (hF : tabWf cs = true → F n)
    (hd : d.inForm) : CarriersEvolve F cs (tabPut cs n d) where
  form hf := tabForm_put hf hn
  wf hwf := tabWf_put n d cs hwf
  inForm hi e he := (mem_tabPut he).elim (fun hx => hx ▸ hd) (hi e)
  born hwf m hm h := by
    have hmn : m ≠ n := by
      rintro rfl
      exact hm (hF hwf)
    rwa [tabGet_put_other n m d hmn]
  spent hwf m hm c' d' hc' hs hd' := by
    have hmn : m ≠ n := by
      rintro rfl
      exact hm (hF hwf)
    rw [tabGet_put_other n m d hmn, hc'] at hd'
    cases hd'
    exact hs

/-- A slot is freed. -/
theorem CarriersEvolve.del (n : Nat) : CarriersEvolve F cs (tabDel cs n) where
  form hf := tabForm_del n hf
  wf hwf := tabWf_del n cs hwf
  inForm hi e he := hi e (mem_tabDel he)
  born hwf m _ h := by
    rw [tabGet_del n m hwf]
    split
    · rfl
    · exact h
  spent hwf m _ c d hc hs hd := by
    rw [tabGet_del n m hwf] at hd
    split at hd
    · cases hd
    · rw [hc] at hd
      cases hd
      exact hs

/-- Every slot is freed. -/
theorem CarriersEvolve.clear : CarriersEvolve F cs [] where
  form _ := tabForm_nil _
  wf _ := rfl
  inForm _ e he := by simp at he
  born _ _ _ _ := rfl
  spent _ _ _ _ _ _ _ hd := by simp [tabGet] at hd

end Carriers

/-! The state -/

/-- What a step may make of the state: the tables keep their lengths and their form, no queue outgrows its limit, each
zone and the table of carriers evolve. `F` are the carrier slots that were free as the step began. Each part is, by
default, one the update at hand does not write. -/
structure State.evolves (F : Nat → Prop) (s t : State) : Prop where
  zones : t.zones.length = s.zones.length := by rfl
  zone : ∀ n, (s.zone n).evolves (t.zone n) := by exact fun n => Zone.evolves_refl _
  classes : t.classes.length = s.classes.length := by rfl
  batches : s.batches.length ≤ Config.batchLimit → t.batches.length ≤ Config.batchLimit := by exact id
  claims : s.claims.length ≤ Config.claimTableSize → t.claims.length ≤ Config.claimTableSize := by exact id
  alerts : s.alerts.length ≤ Config.alertLimit → t.alerts.length ≤ Config.alertLimit := by exact id
  hostBuffer : s.hostLink.buffer.length ≤ Config.bufferLimit → t.hostLink.buffer.length ≤ Config.bufferLimit := by
    exact id
  floorBuffer : s.floorLink.buffer.length ≤ Config.bufferLimit → t.floorLink.buffer.length ≤ Config.bufferLimit := by
    exact id
  containers : tabForm Config.containerNumbers s.containers → tabForm Config.containerNumbers t.containers := by exact id
  carriers : CarriersEvolve F s.carriers t.carriers := by exact CarriersEvolve.refl _

section Evolves

variable {F : Nat → Prop} {s t u : State}

theorem State.evolves_refl (s : State) : s.evolves F s where

theorem State.evolves.trans (h1 : s.evolves F t) (h2 : t.evolves F u) : s.evolves F u where
  zones := h2.zones.trans h1.zones
  zone n := (h1.zone n).trans (h2.zone n)
  classes := h2.classes.trans h1.classes
  batches := h2.batches ∘ h1.batches
  claims := h2.claims ∘ h1.claims
  alerts := h2.alerts ∘ h1.alerts
  hostBuffer := h2.hostBuffer ∘ h1.hostBuffer
  floorBuffer := h2.floorBuffer ∘ h1.floorBuffer
  containers := h2.containers ∘ h1.containers
  carriers := h1.carriers.trans h2.carriers

/-- A fold of updates that each evolve the state. -/
theorem State.foldl_evolves {α : Type} {f : State → α → State} (hf : ∀ (s : State) (a : α), s.evolves F (f s a)) :
    ∀ (l : List α) (s : State), s.evolves F (l.foldl f s)
  | [], s => s.evolves_refl
  | a :: l, s => (hf s a).trans (State.foldl_evolves hf l (f s a))

/-- What a state in form becomes when it evolves is in form (R1, R26, R37, R50, R88, R124, R147, R168, R182). -/
theorem State.evolves.form (h : s.evolves F t) (hs : s.bounded ∧ s.tabled ∧ s.ordered) :
    t.bounded ∧ t.tabled ∧ t.ordered := by
  obtain ⟨⟨hz, hc, hb, hcl, ha, hh, hf⟩, ⟨hwc, hwk, hlc, hlk⟩, ho⟩ := hs
  have hcar := h.carriers.form ⟨hwc, hlc⟩
  have hcon := h.containers ⟨hwk, hlk⟩
  refine ⟨⟨h.zones.trans hz, h.classes.trans hc, h.batches hb, h.claims hcl, h.alerts ha, h.hostBuffer hh,
    h.floorBuffer hf⟩, ⟨hcar.1, hcon.1, hcar.2, hcon.2⟩, fun z hzm => ?_⟩
  obtain ⟨n, hn, rfl⟩ := List.mem_iff_getElem.mp hzm
  have hn' : n < s.zones.length := h.zones ▸ hn
  have hzone : t.zone n = t.zones[n] := by simp [State.zone, List.getD_eq_getElem?_getD, hn]
  have hzone' : s.zone n = s.zones[n] := by simp [State.zone, List.getD_eq_getElem?_getD, hn']
  rw [← hzone]
  exact (h.zone n).lists (hzone' ▸ ho _ (List.getElem_mem hn'))

theorem State.evolves.conserved (h : s.evolves F t) (hs : s.conserved) : t.conserved := h.carriers.inForm hs

theorem State.evolves.integralsKept (h : s.evolves F t) : s.integralsKept t := fun n => ⟨(h.zone n).e, (h.zone n).p⟩

/-! Updates of one field -/

theorem State.setZone_evolves (s : State) (n : Nat) (z : Zone) (h : (s.zone n).evolves z) :
    s.evolves F (s.setZone n z) where
  zones := by simp
  zone m := by
    by_cases hm : m = n
    · subst hm
      by_cases hl : m < s.zones.length
      · rwa [State.zone_setZone s m z hl]
      · have hm : s.zones.length ≤ m := Nat.le_of_not_lt hl
        rw [s.zone_beyond m hm, State.zone_beyond _ m (by simpa using hm)]
        exact Zone.evolves_refl _
    · rw [State.zone_setZone_other s n m z hm]
      exact Zone.evolves_refl _

theorem State.modZone_evolves (s : State) (n : Nat) (f : Zone → Zone) (h : ∀ z : Zone, z.evolves (f z)) :
    s.evolves F (s.modZone n f) :=
  s.setZone_evolves n _ (h _)

theorem State.modZoneOpt_evolves (s : State) (n : Option Nat) (f : Zone → Zone) (h : ∀ z : Zone, z.evolves (f z)) :
    s.evolves F (s.modZoneOpt n f) := by
  cases n with
  | none => exact s.evolves_refl
  | some n => exact s.modZone_evolves n f h

theorem State.zone_mapZones (s : State) (f : Zone → Zone) (n : Nat) :
    ({ s with zones := s.zones.map f } : State).zone n = if n < s.zones.length then f (s.zone n) else Zone.cold := by
  by_cases h : n < s.zones.length
  · simp [State.zone, List.getD_eq_getElem?_getD, h]
  · simp [State.zone, List.getD_eq_getElem?_getD, h]

theorem State.mapZones_evolves (s : State) (f : Zone → Zone) (h : ∀ z : Zone, z.evolves (f z)) :
    s.evolves F { s with zones := s.zones.map f } where
  zones := List.length_map ..
  zone n := by
    rw [State.zone_mapZones]
    split
    · exact h _
    · next hn =>
      rw [State.zone_beyond s n (Nat.le_of_not_lt hn)]
      exact Zone.evolves_refl _

theorem State.setCls_evolves (s : State) (n : Nat) (c : ClassRec) : s.evolves F (s.setCls n c) where
  classes := by simp [State.setCls]

theorem State.setCarrier_evolves {c : Carrier} (n : Nat) (d : Carrier) (hc : s.carrier n = some c) (h : c.evolves d) :
    s.evolves F (s.setCarrier n d) where
  carriers := CarriersEvolve.put hc h

theorem State.modCarrier_evolves (s : State) (n : Nat) (f : Carrier → Carrier) (h : ∀ c : Carrier, c.evolves (f c)) :
    s.evolves F (s.modCarrier n f) := by
  unfold State.modCarrier
  split
  · exact s.evolves_refl
  · next c hc => exact State.setCarrier_evolves n _ hc (h c)

theorem State.modContainer_evolves (s : State) (n : Nat) (f : Container → Container) :
    s.evolves F (s.modContainer n f) := by
  unfold State.modContainer
  split
  · exact s.evolves_refl
  · next c hc => exact { containers := fun hf => tabForm_put hf (hf.2 _ (tabGet_mem hc)) }

theorem State.raise_evolves (s : State) (k : AlertKind) (subj : Subject) (v : Option AlertValue) :
    s.evolves F (s.raise k subj v) := by
  have h := s.raise_alerts_length k subj v
  rw [State.raise_eta]
  exact { alerts := h }

/-- A link takes a frame engine whose buffer keeps to its limit. -/
theorem State.setLink_evolves (s : State) (l : Link) (ls : LinkState)
    (h : (s.link l).buffer.length ≤ Config.bufferLimit → ls.buffer.length ≤ Config.bufferLimit) :
    s.evolves F (s.setLink l ls) := by
  cases l with
  | host => exact { hostBuffer := h }
  | floor => exact { floorBuffer := h }

theorem State.setHand_evolves (s : State) (l : Link) (h : Option Hand) : s.evolves F (s.setHand l h) :=
  s.setLink_evolves l _ id

end Evolves

end Sys2Proof.Machine

/-! PROOFS. Invariants of a run: the shared operations evolve the state. -/

namespace Sys2Proof.Machine

-- One proof after another: elaborated side by side, so many short ones outgrow the memory a compile may take.
set_option Elab.async false

variable {F : Nat → Prop}

/-! Alerts and captures -/

section Alerts

variable (s : State)

theorem State.raiseAll_evolves (ks : List AlertKind) (subj : Subject) : s.evolves F (s.raiseAll ks subj) :=
  State.foldl_evolves (fun s k => s.raise_evolves k subj none) ks s

theorem State.bakeRefusal_evolves (slot : Nat) (b : Bool) : s.evolves F (s.bakeRefusal slot b) := by
  unfold State.bakeRefusal
  split
  · exact s.evolves_refl
  · split
    · exact s.raise_evolves ..
    · exact s.evolves_refl

theorem State.fillCapture_evolves (r : CaptureRec) : s.evolves F (s.fillCapture r) :=
  State.evolves.trans { } (State.raise_evolves _ _ _ _)

theorem State.raiseFault_evolves (kind : CaptureKind) (source : CaptureSource) (label : Option Label)
    (loc zone : Option Nat) : s.evolves F (s.raiseFault kind source label loc zone) := by
  unfold State.raiseFault
  split
  · exact { }
  · exact s.fillCapture_evolves _

theorem State.takeMatch_evolves (src : CaptureSource) (label : Label) (loc zone : Nat) (b : Bool) :
    s.evolves F (s.takeMatch src label loc zone b) :=
  State.evolves.trans { } (State.fillCapture_evolves _ _)

theorem State.testArrival_evolves (src : CaptureSource) (label : Label) (loc z : Nat) :
    s.evolves F (s.testArrival src label loc z).1 := by
  unfold State.testArrival
  split
  · exact s.takeMatch_evolves ..
  · exact s.evolves_refl

theorem State.testFinalArrival_evolves (label : Label) (loc z : Nat) : s.evolves F (s.testFinalArrival label loc z) := by
  unfold State.testFinalArrival
  split
  · exact s.takeMatch_evolves ..
  · exact s.evolves_refl

theorem State.unmappedFault_evolves (l : Link) (label : Option Label) (loc : Nat) :
    s.evolves F (s.unmappedFault l label loc) :=
  s.raiseFault_evolves ..

theorem State.retireSubject_evolves (it : Item) : s.evolves F (s.retireSubject it) where
  alerts := by simp [State.retireSubject]

end Alerts

/-! The entry tests -/

section Entry

variable (s : State) (l : Link) (label : Label) (loc : Nat)

theorem State.enterWatched_evolves (z : Nat) (b : Bool) : s.evolves F (s.enterWatched l label loc z b).state := by
  unfold State.enterWatched
  split
  · dsimp only
    split <;> exact s.testArrival_evolves ..
  · exact s.evolves_refl

theorem State.enterZone_evolves (z : Nat) (life : Life) (h b : Bool) :
    s.evolves F (s.enterZone l label loc z life h b).state := by
  unfold State.enterZone
  dsimp only
  split
  · exact s.evolves_refl
  · split
    · exact s.evolves_refl
    · split
      · exact s.evolves_refl
      · exact s.enterWatched_evolves ..

theorem State.enterCarrier_evolves (life : Life) (h b : Bool) :
    s.evolves F (s.enterCarrier l label loc life h b).state := by
  unfold State.enterCarrier
  split
  · exact s.unmappedFault_evolves ..
  · exact s.enterZone_evolves ..

theorem State.enterContainer_evolves : s.evolves F (s.enterContainer l label loc).state := by
  unfold State.enterContainer
  split
  · exact s.unmappedFault_evolves ..
  · split
    · exact s.evolves_refl
    · exact s.enterWatched_evolves ..

end Entry

/-! Records -/

section Records

variable (s : State) (n : Nat)

theorem State.bumpCarrier_evolves : s.evolves F (s.bumpCarrier n) :=
  s.modCarrier_evolves n _ fun _ => Carrier.evolves_of_eq rfl rfl rfl rfl rfl

theorem State.bumpCarrierIf_evolves (b : Bool) : s.evolves F (s.bumpCarrierIf n b) := by
  unfold State.bumpCarrierIf
  split
  · exact s.bumpCarrier_evolves n
  · exact s.evolves_refl

theorem State.markCarrier_evolves (b : Bool) : s.evolves F (State.markCarrier b s n) :=
  s.modCarrier_evolves n _ fun _ => Carrier.evolves_of_eq rfl rfl rfl rfl rfl

theorem State.setHold_evolves (reason : Nat) : s.evolves F (s.setHold n reason) :=
  (s.modCarrier_evolves n (fun c => { c with hold := reason }) fun _ =>
    Carrier.evolves_of_eq rfl rfl rfl rfl rfl).trans (State.bumpCarrier_evolves _ n)

theorem State.bumpContainer_evolves : s.evolves F (s.bumpContainer n) := s.modContainer_evolves n _

theorem State.markContainer_evolves (b : Bool) : s.evolves F (State.markContainer b s n) := s.modContainer_evolves n _

theorem State.addMember_evolves (it : Item) : s.evolves F (s.addMember n it) := s.modContainer_evolves n _

theorem State.dropMember_evolves (it : Item) : s.evolves F (s.dropMember n it) := s.modContainer_evolves n _

theorem State.addSubtree_evolves (ns : List Nat) (k : Nat) : s.evolves F (s.addSubtree ns k) :=
  State.foldl_evolves (fun s n => s.modContainer_evolves n _) ns s

theorem State.subSubtree_evolves (ns : List Nat) (k : Nat) : s.evolves F (s.subSubtree ns k) :=
  State.foldl_evolves (fun s n => s.modContainer_evolves n _) ns s

end Records

theorem State.setDepthsFuel_evolves : ∀ (fuel n d : Nat) (s : State), s.evolves F (State.setDepthsFuel fuel n d s)
  | 0, _, _, s => s.evolves_refl
  | fuel + 1, n, d, s =>
    (s.modContainer_evolves n fun c => { c with depth := d }).trans
      (State.foldl_evolves
        (fun s it => match it with
          | .carrier _ => s.evolves_refl
          | .container m => State.setDepthsFuel_evolves fuel m (d + 1) s) (s.members n) _)

section Containers

variable (s : State)

theorem State.joinContainer_evolves (x t : Nat) : s.evolves F (s.joinContainer x t) :=
  (s.modContainer_evolves x _).trans <| (State.addMember_evolves _ t _).trans <|
    (State.setDepthsFuel_evolves _ x _ _).trans <| (State.addSubtree_evolves _ _ _).trans
      (State.bumpContainer_evolves _ x)

theorem State.leaveContainer_evolves (x : Nat) : s.evolves F (s.leaveContainer x) := by
  unfold State.leaveContainer
  split
  · exact s.evolves_refl
  · exact (s.dropMember_evolves _ _).trans <| (State.subSubtree_evolves _ _ _).trans <|
      (State.modContainer_evolves _ x _).trans <| (State.setDepthsFuel_evolves _ x 1 _).trans
        (State.bumpContainer_evolves _ x)

theorem State.leaveMembers_evolves (n : Nat) (p : Option Parent) : s.evolves F (s.leaveMembers n p) := by
  unfold State.leaveMembers
  split
  · exact s.evolves_refl
  · exact (s.dropMember_evolves _ _).trans (State.subSubtree_evolves _ _ _)

end Containers

/-! Settling and moving a carrier -/

section Settle

variable (s : State) (slot : Nat)

theorem State.settle_evolves : s.evolves F (s.settle slot).1 := by
  unfold State.settle
  split
  · exact s.evolves_refl
  · next c hc =>
    have hzone : ∀ z : Zone, z.evolves
        (((z.withdraw slot).file slot (s.settled c).1.eKey (s.settled c).1.pKey).moveLife c.life (s.settled c).1.life) :=
      fun z => (z.withdraw_evolves slot).trans <| (Zone.file_evolves _ slot _ _).trans (Zone.moveLife_evolves _ _ _)
    refine (s.modZoneOpt_evolves c.zone _ hzone).trans <|
      (State.setCarrier_evolves (c := c) slot _ ?_ (s.settled_evolves c)).trans (State.raiseAll_evolves _ _ _)
    rw [State.modZoneOpt_eta]
    exact hc

theorem State.settleStamped_evolves : s.evolves F (s.settleStamped slot) :=
  (s.settle_evolves slot).trans (State.bumpCarrierIf_evolves _ slot _)

theorem State.relocate_evolves (r : Residence) (c : Carrier) (hc : s.carrier slot = some c) :
    s.evolves F (s.relocate slot r c) := by
  unfold State.relocate
  dsimp only
  have hmove := (s.modZoneOpt_evolves (F := F) c.zone _ (Zone.withdraw_evolves · slot)).trans <|
    State.setCarrier_evolves (c := c) slot
      (moveRecord r (s.integrals r.zone).1 (s.integrals r.zone).2 s.clock s.minuteCount c)
      (by rw [State.modZoneOpt_eta]; exact hc) (moveRecord_evolves ..)
  split
  · exact hmove
  · exact hmove.trans <| (State.modZoneOpt_evolves _ _ _ (Zone.dropResident_evolves · c.life)).trans
      (State.modZoneOpt_evolves _ _ _ (Zone.addResident_evolves · c.life))

theorem State.changeResidence_evolves (r : Residence) : s.evolves F (s.changeResidence slot r).1 := by
  unfold State.changeResidence
  split
  · exact s.evolves_refl
  · next c hc =>
    split
    · dsimp only
      split
      · exact s.settle_evolves slot
      · next c1 hc1 =>
        exact (s.settle_evolves slot).trans <| (State.relocate_evolves _ slot r c1 hc1).trans
          (State.settle_evolves _ slot)
    · exact State.setCarrier_evolves slot _ hc (Carrier.evolves_of_eq rfl rfl rfl rfl rfl)

theorem State.moveCarrier_evolves (c : Carrier) (r : Residence) : s.evolves F (s.moveCarrier slot c r) := by
  unfold State.moveCarrier
  dsimp only
  split
  · exact (s.changeResidence_evolves slot r).trans <| (State.bakeRefusal_evolves _ slot false).trans
      (State.bumpCarrier_evolves _ slot)
  · exact (s.changeResidence_evolves slot r).trans (State.bumpCarrier_evolves _ slot)

end Settle

/-! Batches -/

section Batches

variable (s : State)

theorem State.markAll_evolves (b : Bool) (cs ks : List Nat) : s.evolves F (s.markAll b cs ks) :=
  (State.foldl_evolves (fun s n => s.markCarrier_evolves n b) cs s).trans
    (State.foldl_evolves (fun s n => s.markContainer_evolves n b) ks _)

/-- A batch is accepted only while the queue has room for it (R125). -/
theorem State.acceptBatch_evolves (job : BatchJob) (l : Link) (walk ks : List Nat) (h : s.batchRoom = true) :
    s.evolves F (s.acceptBatch job l walk ks) := by
  have hroom : s.batches.length < Config.batchLimit := by simpa [State.batchRoom] using h
  exact State.evolves.trans { batches := fun _ => by simpa using hroom } (State.markAll_evolves _ true walk ks)

theorem State.completeJob_evolves (j : BatchJob) : s.evolves F (s.completeJob j) := by
  unfold State.completeJob
  split
  · exact s.setCls_evolves _ _
  · split
    · exact s.evolves_refl
    · exact s.modZone_evolves _ _ fun _ => Zone.evolves_of_eq rfl rfl rfl rfl
  · exact s.evolves_refl

theorem State.oweWaiting_evolves : s.evolves F s.oweWaiting := by
  unfold State.oweWaiting
  split
  · exact { }
  · exact s.evolves_refl

theorem State.completeBatch_evolves (b : Batch) : s.evolves F (s.completeBatch b) := by
  have htail : s.evolves F ({ s with batches := s.batches.tail } : State) :=
    { batches := fun h => (List.length_tail ▸ Nat.sub_le _ _).trans h }
  exact htail.trans <| (State.completeJob_evolves _ b.job).trans <| (State.raise_evolves _ _ _ _).trans <|
    State.evolves.trans { } (State.oweWaiting_evolves _)

theorem State.setOldest_evolves (b : Batch) : s.evolves F (s.setOldest b) where
  batches h := by
    simp only [State.setOldest, List.length_cons, List.length_tail]
    have : Config.batchLimit = 8 := rfl
    omega

end Batches

/-! Zones, doors and claims -/

section Zones

variable (s : State) (n : Nat)

theorem State.putZone_evolves (cause : Cause) (z : Zone) (h : (s.zone n).evolves z) :
    s.evolves F (s.putZone cause n z) := by
  have hset := s.setZone_evolves (F := F) n (s.recompute z) (h.trans (s.recompute_evolves z))
  unfold State.putZone
  dsimp only
  repeat' split
  all_goals first | exact hset | exact hset.trans (State.raise_evolves _ _ _ _)

theorem State.takeExpiry_evolves : s.evolves F (s.takeExpiry n) := by
  unfold State.takeExpiry
  split
  · exact s.putZone_evolves n _ _ (Zone.evolves_of_eq rfl rfl rfl rfl)
  · exact s.evolves_refl

theorem State.takeGrace_evolves : s.evolves F (s.takeGrace n) := by
  unfold State.takeGrace
  split
  · exact s.putZone_evolves n _ _ (Zone.evolves_of_eq rfl rfl rfl rfl)
  · exact s.evolves_refl

theorem State.openDoor_evolves : s.evolves F (s.openDoor n) := by
  unfold State.openDoor
  dsimp only
  split
  · exact s.putZone_evolves n _ _ (Zone.evolves_of_eq rfl rfl rfl rfl)
  · exact s.setZone_evolves n _ (Zone.evolves_of_eq rfl rfl rfl rfl)

theorem State.closeDoor_evolves : s.evolves F (s.closeDoor n) := by
  unfold State.closeDoor
  dsimp only
  split
  · exact s.putZone_evolves n _ _ (Zone.evolves_of_eq rfl rfl rfl rfl)
  · exact s.setZone_evolves n _ (Zone.evolves_of_eq rfl rfl rfl rfl)

theorem State.deliverDoor_evolves (line : Nat) (opened : Bool) : s.evolves F (s.deliverDoor line opened) := by
  refine State.foldl_evolves (fun s n => ?_) _ s
  split
  · split
    · exact s.openDoor_evolves n
    · exact s.closeDoor_evolves n
  · exact s.evolves_refl

theorem State.freeClaim_evolves (it : Item) : s.evolves F (s.freeClaim it) where
  claims h := (List.length_filter_le _ _).trans h

theorem State.reloadClaim_evolves (l : Link) (it : Item) : s.evolves F (s.reloadClaim l it) where
  claims := by simp [State.reloadClaim]

theorem State.lapse_evolves (c : Claim) : s.evolves F (s.lapse c) :=
  (s.freeClaim_evolves c.item).trans (State.raise_evolves _ _ _ _)

theorem State.takeDue_evolves : s.evolves F s.takeDue := by
  unfold State.takeDue
  split
  · exact (State.foldl_evolves (fun s n => (s.takeExpiry_evolves n).trans (State.takeGrace_evolves _ n)) _ s).trans
      (State.foldl_evolves (fun s c => s.lapse_evolves c) _ _)
  · exact s.evolves_refl

end Zones

/-! The arbiter and the links -/

section Links

variable (s : State) (l : Link)

theorem State.grantPort_evolves : s.evolves F (s.grantPort l) where

theorem State.grantStep_evolves : s.evolves F s.grantStep where

theorem State.freeStore_evolves : s.evolves F s.freeStore := by
  unfold State.freeStore
  split
  · exact s.evolves_refl
  · exact { }

theorem State.hunt_evolves : s.evolves F (s.hunt l) := s.setLink_evolves l _ id

theorem State.keepFrame_evolves (bytes : List Byte) : s.evolves F (s.keepFrame l bytes) := s.setLink_evolves l _ id

theorem State.takeFrame_evolves : s.evolves F (s.takeFrame l) := by
  unfold State.takeFrame
  dsimp only
  split
  · next body rest hh hb =>
    refine s.setLink_evolves l _ fun h => ?_
    rw [hb] at h
    exact (Nat.le_succ _).trans h
  · exact s.evolves_refl

/-- A frame joins the buffer only while it has room (R182). -/
theorem State.bufferFrame_evolves (body : List Byte) : s.evolves F (s.bufferFrame l body) := by
  unfold State.bufferFrame
  dsimp only
  split
  · next hroom =>
    exact (s.setLink_evolves l _ fun _ => by simpa using hroom).trans (State.takeFrame_evolves _ l)
  · exact s.setLink_evolves l _ id

theorem State.discardFrame_evolves : s.evolves F (s.discardFrame l) :=
  (s.setLink_evolves l _ (by exact id)).trans (State.raiseFault_evolves _ _ _ _ _ _)

theorem State.takeByte_evolves (b : Byte) : s.evolves F (s.takeByte l b) := by
  unfold State.takeByte
  split
  · split
    · exact s.keepFrame_evolves l _
    · exact s.evolves_refl
  · split
    · exact s.keepFrame_evolves l _
    · exact (s.hunt_evolves l).trans (State.discardFrame_evolves _ l)
    · exact (s.hunt_evolves l).trans (State.bufferFrame_evolves _ l _)

theorem State.takeCharacter_evolves (c : Character) : s.evolves F (s.takeCharacter l c) := by
  unfold State.takeCharacter
  split
  · exact s.takeByte_evolves l _
  · exact s.evolves_refl

theorem State.replyGone_evolves : s.evolves F (s.replyGone l) := by
  unfold State.replyGone
  split
  · exact (s.setHand_evolves l none).trans (State.takeFrame_evolves _ l)
  · exact s.evolves_refl

end Links

/-! The order of checks and the serving of a request -/

section Serving

variable (s : State)

theorem State.checkStamp_evolves (it : Item) (stamp : Nat) : s.evolves F (s.checkStamp it stamp).state := by
  unfold State.checkStamp
  split
  · exact s.evolves_refl
  · split <;> exact s.evolves_refl

theorem State.checkClaim_evolves (l : Link) (it : Item) (next : State → Checked)
    (h : ∀ t : State, t.evolves F (next t).state) : s.evolves F (s.checkClaim l it next).state := by
  unfold State.checkClaim
  split
  · exact s.evolves_refl
  · exact (s.reloadClaim_evolves l it).trans (h _)

theorem State.checkItem_evolves (l : Link) (label : Label) (stamp : Nat) :
    s.evolves F (s.checkItem l label stamp).state := by
  unfold State.checkItem
  split
  · exact s.evolves_refl
  · split
    · exact s.evolves_refl
    · exact s.checkClaim_evolves _ _ _ fun t => t.checkStamp_evolves _ _

theorem runChecked_evolves (c : Checked) (f g : Nat → Owner) (hc : s.evolves F c.state)
    (hf : ∀ n (t : State), t.evolves F (f n t).1) (hg : ∀ n (t : State), t.evolves F (g n t).1) :
    s.evolves F (runChecked c f g).1 := by
  unfold runChecked
  split
  · exact hc
  · exact hc.trans (hf _ _)
  · exact hc.trans (hg _ _)

theorem itemRequest_evolves (l : Link) (label : Label) (stamp : Nat) (f g : Nat → Owner)
    (hf : ∀ n (t : State), t.evolves F (f n t).1) (hg : ∀ n (t : State), t.evolves F (g n t).1) :
    s.evolves F (itemRequest l label stamp f g s).1 :=
  runChecked_evolves s _ f g (s.checkItem_evolves l label stamp) hf hg

theorem State.refuseCarrier_evolves (n : Nat) (b : Bool) (st : Byte) (x : List Byte) :
    s.evolves F (s.refuseCarrier n b st x).1 :=
  s.bumpCarrierIf_evolves n b

theorem withSettled_evolves (n : Nat) (act : Carrier → Bool → Owner)
    (h : ∀ c b (t : State), t.evolves F (act c b t).1) : s.evolves F (withSettled n act s).1 := by
  unfold withSettled
  dsimp only
  split
  · exact s.settle_evolves n
  · exact (s.settle_evolves n).trans (h _ _ _)

theorem State.movedReply_evolves (n : Nat) (c : Carrier) (r : Residence) : s.evolves F (s.movedReply n c r).1 :=
  s.moveCarrier_evolves n c r

theorem State.present_evolves (l : Link) (c : Instr) : s.evolves F (s.present l c) := by
  unfold State.present
  split
  · exact s.evolves_refl
  · split
    · exact s.setHand_evolves l _
    · exact s.evolves_refl

theorem State.act_evolves (l : Link) (c : Instr) (own : Owner) (h : s.evolves F (own s).1) :
    s.evolves F (s.act l c own) := by
  unfold State.act
  dsimp only
  split
  · exact s.evolves_refl
  · exact h.trans (State.setHand_evolves _ l _)

@[simp] theorem State.takeDue_carriers : s.takeDue.carriers = s.carriers := by
  rw [State.takeDue_eta]

@[simp] theorem State.present_carriers (l : Link) (c : Instr) : (s.present l c).carriers = s.carriers := by
  unfold State.present
  split
  · rfl
  · split
    · exact s.setHand_carriers l _
    · rfl

/-- Serving a request evolves the state when its owner does, whom it reaches with the carriers as they were. -/
theorem serve_evolves {l : Link} {c : Instr} {own : Owner} {t : State}
    (h : ∀ u : State, u.carriers = s.carriers → u.evolves F (own u).1) (ht : serve l c own s = .next t) :
    s.evolves F t := by
  unfold serve at ht
  dsimp only at ht
  split at ht
  · cases ht
    refine s.takeDue_evolves.trans ((State.present_evolves _ l c).trans ?_)
    unfold State.serveInHand
    split
    · split
      · split
        · exact (State.grantPort_evolves _ l).trans <|
            (State.act_evolves _ l c own (h _ (by simp))).trans (State.freeStore_evolves _)
        · exact State.evolves_refl _
      · exact State.act_evolves _ l c own (h _ (by simp))
    · exact State.evolves_refl _
  · cases ht
    exact s.takeDue_evolves

end Serving

end Sys2Proof.Machine

/-! PROOFS. Invariants of a run: every command evolves the state, but a cold start and the loss of power before it. -/

namespace Sys2Proof.Machine

-- One proof after another: elaborated side by side, so many short ones outgrow the memory a compile may take.
set_option Elab.async false

open Sys2Proof

variable {F : Nat → Prop}

/-! Enrolment, retiring, holding, evacuating -/

section Accounts

variable (s : State) (l : Link) (label : Label)

/-- A carrier is formed in a slot that was free as the step began (R1, R78). -/
theorem State.formCarrier_evolves {slot : Nat} {c : Carrier} (hslot : slot < Config.carrierSlots)
    (hF : tabWf s.carriers = true → F slot) (hc : c.inForm) : s.evolves F (s.formCarrier slot label c) :=
  State.evolves.trans { carriers := CarriersEvolve.form_new hslot hF hc } <|
    (State.setCls_evolves _ _ _).trans <|
      (State.modZoneOpt_evolves _ _ _ (Zone.addResident_evolves · c.life)).trans <|
        (State.settle_evolves _ slot).trans (State.bakeRefusal_evolves _ slot false)

theorem enrolAt_evolves {slot : Nat} (cls x : Nat) (b : Bool) (k : Nat) (p : Option Parent) (z : Option Nat)
    (hslot : slot < Config.carrierSlots) (hF : tabWf s.carriers = true → F slot) :
    s.evolves F (enrolAt slot label cls x b k p z s).1 :=
  s.formCarrier_evolves label hslot hF ⟨newCarrier_conserved .., Nat.zero_le _⟩

theorem State.enterCarrier_carriers (loc : Nat) (life : Life) (h b : Bool) :
    (s.enterCarrier l label loc life h b).state.carriers = s.carriers := by
  have hcap := s.enterCarrier_only l label loc life h b
  rw [State.capturesOnly] at hcap
  rw [hcap]

theorem enrolInSlot_evolves {slot : Nat} (cls x : Nat) (b : Bool) (k : Nat) (loc : Option Nat)
    (hslot : slot < Config.carrierSlots) (hF : tabWf s.carriers = true → F slot) :
    s.evolves F (enrolInSlot l label cls x b k loc slot s).1 := by
  unfold enrolInSlot
  split
  · exact enrolAt_evolves s label _ _ _ _ _ _ hslot hF
  · next loc =>
    have hent := s.enterCarrier_evolves (F := F) l label loc (s.firstLife cls x k) false true
    have hcar := s.enterCarrier_carriers l label loc (s.firstLife cls x k) false true
    split
    · next he => rw [he] at hent; exact hent
    · next u z he =>
      rw [he] at hent hcar
      exact hent.trans (enrolAt_evolves u label _ _ _ _ _ _ hslot fun h => hF (hcar ▸ h))

/-- ENROL of a carrier takes a free slot: the only births (R77). -/
theorem ownEnrolCarrier_evolves (cls : Byte) (m : Word) (p k : Byte) (loc : Option Half)
    (hF : ∀ n, tabGet s.carriers n = none → F n) : s.evolves F (ownEnrolCarrier l label cls m p k loc s).1 := by
  unfold ownEnrolCarrier
  repeat' split
  all_goals try exact s.evolves_refl
  next slot hslot =>
  exact enrolInSlot_evolves s l label _ _ _ _ _ (tabFree_lt hslot) fun hwf => hF slot (tabFree_spec hwf hslot).2.1

theorem enrolContainerAt_evolves {n : Nat} (b : Bool) (p : Option Parent) (z : Option Nat)
    (hn : n < Config.containerNumbers) : s.evolves F (enrolContainerAt n label b p z s).1 :=
  State.evolves.trans { containers := fun h => tabForm_put h hn }
    (State.modZoneOpt_evolves _ _ _ fun _ => Zone.evolves_of_eq rfl rfl rfl rfl)

theorem ownEnrolContainer_evolves (p : Byte) (loc : Option Half) : s.evolves F (ownEnrolContainer l label p loc s).1 := by
  unfold ownEnrolContainer
  split
  · exact s.evolves_refl
  · split
    · exact s.evolves_refl
    · split
      · exact s.evolves_refl
      · next n hn =>
        split
        · exact enrolContainerAt_evolves s label _ _ _ (tabFree_lt hn)
        · next x hx =>
          have hent := s.enterContainer_evolves (F := F) l label x
          split
          · next he => rw [he] at hent; exact hent
          · next he =>
            rw [he] at hent
            exact hent.trans (enrolContainerAt_evolves _ label _ _ _ (tabFree_lt hn))

theorem State.forgetItem_evolves (it : Item) : s.evolves F (s.forgetItem it) :=
  (s.freeClaim_evolves it).trans <| (State.retireSubject_evolves _ it).trans { }

theorem State.freeCarrier_evolves (n : Nat) (c : Carrier) : s.evolves F (s.freeCarrier n c) :=
  (s.modZoneOpt_evolves c.zone _ fun z => (z.withdraw_evolves n).trans (Zone.dropResident_evolves _ c.life)).trans <|
    (State.leaveMembers_evolves _ n c.parent).trans <| (State.setCls_evolves _ _ _).trans <|
      (State.forgetItem_evolves _ (.carrier n)).trans { carriers := CarriersEvolve.del n }

theorem retireCarrier_evolves (n : Nat) : s.evolves F (retireCarrier n s).1 :=
  withSettled_evolves s n _ fun _ _ t => (t.bumpCarrierIf_evolves n _).trans (State.freeCarrier_evolves _ n _)

theorem State.freeContainer_evolves (n : Nat) (c : Container) : s.evolves F (s.freeContainer n c) := by
  have hleave : s.evolves F
      (match Parent.container? c.parent with
        | none => s
        | some p => s.dropMember p (.container n)) := by
    split
    · exact s.evolves_refl
    · exact s.dropMember_evolves _ _
  exact hleave.trans <| (State.modZoneOpt_evolves _ c.zone (fun z => { z with containers := z.containers - 1 })
    fun _ => Zone.evolves_of_eq rfl rfl rfl rfl).trans <|
      (State.forgetItem_evolves _ (.container n)).trans { containers := tabForm_del n }

theorem retireContainer_evolves (n : Nat) : s.evolves F (retireContainer n s).1 := by
  unfold retireContainer
  split
  · exact s.evolves_refl
  · split
    · exact s.evolves_refl
    · exact s.freeContainer_evolves n _

theorem ownRetire_evolves (stamp : Option Half) : s.evolves F (ownRetire l label stamp s).1 :=
  itemRequest_evolves s l label _ _ _ (fun n t => retireCarrier_evolves t n) fun n t => retireContainer_evolves t n

theorem holdCarrier_evolves (reason n : Nat) : s.evolves F (holdCarrier reason n s).1 :=
  withSettled_evolves s n _ fun c b t => by
    dsimp only
    split
    · exact t.bumpCarrierIf_evolves n b
    · exact t.setHold_evolves n reason

theorem ownHold_evolves (reason : Byte) (stamp : Option Half) : s.evolves F (ownHold l label reason stamp s).1 :=
  itemRequest_evolves s l label _ _ _ (fun n t => holdCarrier_evolves t _ n) fun _ t => t.evolves_refl

theorem unholdCarrier_evolves (n : Nat) : s.evolves F (unholdCarrier n s).1 :=
  withSettled_evolves s n _ fun c b t => by
    split
    · exact t.refuseCarrier_evolves n b _ _
    · exact t.setHold_evolves n 0

theorem ownUnhold_evolves (stamp : Option Half) : s.evolves F (ownUnhold l label stamp s).1 :=
  itemRequest_evolves s l label _ _ _ (fun n t => unholdCarrier_evolves t n) fun _ t => t.evolves_refl

theorem evacuateTo_evolves (z target loc : Nat) : s.evolves F (evacuateTo l z target loc s).1 := by
  unfold evacuateTo
  repeat' split
  all_goals try exact s.evolves_refl
  next hroom _ =>
  exact (s.acceptBatch_evolves _ l _ _ (by simpa using hroom)).trans
    (State.modZone_evolves _ z (fun zr => { zr with evacuating := true }) fun _ => Zone.evolves_of_eq rfl rfl rfl rfl)

theorem ownEvacuate_evolves (zone : Byte) (loc : Half) : s.evolves F (ownEvacuate l zone loc s).1 := by
  unfold ownEvacuate
  split
  · exact s.evolves_refl
  · split
    · exact s.evolves_refl
    · split
      · exact s.unmappedFault_evolves ..
      · exact evacuateTo_evolves s l ..

end Accounts

/-! Movement -/

section Movement

variable (s : State) (l : Link) (label : Label) (n : Nat)

theorem openInPlace_evolves (c : Carrier) (b : Bool) : s.evolves F (openInPlace n c b s).1 := by
  unfold openInPlace
  dsimp only
  split
  · exact s.refuseCarrier_evolves ..
  · split
    · exact s.refuseCarrier_evolves ..
    · exact s.movedReply_evolves ..

/-- A request that enters a zone: what the tests leave, then the act on a refusal or an admission. -/
theorem entered_evolves (loc : Nat) (life : Life) (h a : Bool) {refused : State → Byte → List Byte → State × List Byte}
    {admitted : State → Nat → State × List Byte} (hr : ∀ (u : State) st x, u.evolves F (refused u st x).1)
    (ha : ∀ (u : State) z, u.evolves F (admitted u z).1) :
    s.evolves F (match s.enterCarrier l label loc life h a with
      | .refused u st x => refused u st x
      | .admitted u z => admitted u z).1 := by
  have hent := s.enterCarrier_evolves (F := F) l label loc life h a
  split
  · next he => rw [he] at hent; exact hent.trans (hr _ _ _)
  · next he => rw [he] at hent; exact hent.trans (ha _ _)

theorem openAt_evolves (loc : Nat) (c : Carrier) (b : Bool) : s.evolves F (openAt l label loc n c b s).1 := by
  unfold openAt
  split
  · exact s.refuseCarrier_evolves ..
  · exact entered_evolves s l label loc _ _ _ (fun u st x => u.refuseCarrier_evolves n b st x)
      fun u z => u.movedReply_evolves n c _

theorem openCarrier_evolves (loc : Option Nat) : s.evolves F (openCarrier l label loc n s).1 :=
  withSettled_evolves s n _ fun c b t => by
    split
    · exact t.refuseCarrier_evolves ..
    · split
      · exact openInPlace_evolves t n c b
      · exact openAt_evolves t l label n _ c b

theorem queuePacking_evolves (job : BatchJob) : s.evolves F (queuePacking l job n s).1 := by
  unfold queuePacking
  repeat' split
  all_goals try exact s.evolves_refl
  next hroom => exact s.acceptBatch_evolves _ l _ _ (by simpa using hroom)

theorem openContainer_evolves (loc : Option Nat) : s.evolves F (openContainer l loc n s).1 := by
  unfold openContainer
  split
  · exact s.evolves_refl
  · split
    · exact s.evolves_refl
    · exact queuePacking_evolves s l n _

theorem ownOpen_evolves (stamp loc : Option Half) : s.evolves F (ownOpen l label stamp loc s).1 :=
  itemRequest_evolves s l label _ _ _ (fun n t => openCarrier_evolves t l label n _)
    fun n t => openContainer_evolves t l n _

theorem placeAdmitted_evolves (loc : Nat) (c : Carrier) (b : Bool) (z : Nat) :
    s.evolves F (placeAdmitted loc n c b z s).1 := by
  unfold placeAdmitted
  split
  · exact s.bumpCarrierIf_evolves n b
  · exact s.movedReply_evolves ..

theorem placeCarrier_evolves (loc : Nat) : s.evolves F (placeCarrier l label loc n s).1 :=
  withSettled_evolves s n _ fun c b t => by
    split
    · exact t.refuseCarrier_evolves ..
    · exact entered_evolves t l label loc _ _ _ (fun u st x => u.refuseCarrier_evolves n b st x)
        fun u z => placeAdmitted_evolves u n loc c b z

theorem queueMove_evolves (loc target : Nat) : s.evolves F (queueMove l loc n target s).1 := by
  unfold queueMove
  repeat' split
  all_goals try exact s.evolves_refl
  next hroom _ => exact s.acceptBatch_evolves _ l _ _ (by simpa using hroom)

theorem placeContainer_evolves (loc : Nat) : s.evolves F (placeContainer l label loc n s).1 := by
  unfold placeContainer
  split
  · exact s.evolves_refl
  · split
    · exact s.unmappedFault_evolves ..
    · split
      · exact s.evolves_refl
      · exact queueMove_evolves s l n _ _

theorem ownPlace_evolves (stamp loc : Half) : s.evolves F (ownPlace l label stamp loc s).1 :=
  itemRequest_evolves s l label _ _ _ (fun n t => placeCarrier_evolves t l label n _)
    fun n t => placeContainer_evolves t l label n _

theorem packCarrier_evolves : s.evolves F (packCarrier n s).1 :=
  withSettled_evolves s n _ fun c b t => by
    split
    · exact t.refuseCarrier_evolves ..
    · exact t.movedReply_evolves ..

theorem packContainer_evolves : s.evolves F (packContainer l n s).1 := by
  unfold packContainer
  split
  · exact s.evolves_refl
  · exact queuePacking_evolves s l n _

theorem ownPack_evolves (stamp : Option Half) : s.evolves F (ownPack l label stamp s).1 :=
  itemRequest_evolves s l label _ _ _ (fun n t => packCarrier_evolves t n) fun n t => packContainer_evolves t l n

end Movement

/-! Nesting -/

section Nesting

variable (s : State) (l : Link) (label : Label) (n : Nat)

theorem State.checkNest_evolves (target : Label) (stamp : Nat) :
    s.evolves F (s.checkNest l label target stamp).state := by
  unfold State.checkNest
  split
  · exact s.evolves_refl
  · exact s.evolves_refl
  · split
    · exact s.evolves_refl
    · exact s.checkClaim_evolves _ _ _ fun t => t.checkClaim_evolves _ _ _ fun u => u.checkStamp_evolves _ _

theorem nestCarrierInto_evolves (t : Nat) (c : Carrier) : s.evolves F (nestCarrierInto t n c s).1 :=
  (s.moveCarrier_evolves n c _).trans <| (State.addMember_evolves _ t _).trans (State.addSubtree_evolves _ _ 1)

theorem nestCarrier_evolves (target : Item) : s.evolves F (nestCarrier target n s).1 :=
  withSettled_evolves s n _ fun c b t => by
    split
    · exact t.refuseCarrier_evolves ..
    · exact nestCarrierInto_evolves t n _ c

theorem queueReparent_evolves (job : BatchJob) (above : Nat) : s.evolves F (queueReparent l job n above s).1 := by
  unfold queueReparent
  split
  · exact s.evolves_refl
  · next hroom => exact s.acceptBatch_evolves _ l _ _ (by simpa using hroom)

theorem nestContainer_evolves (target : Item) : s.evolves F (nestContainer l target n s).1 := by
  unfold nestContainer
  split
  · exact s.evolves_refl
  · dsimp only
    split
    · exact queueReparent_evolves s l n _ _
    · exact s.joinContainer_evolves n _

theorem ownNest_evolves (target : Label) (stamp : Option Half) : s.evolves F (ownNest l label target stamp s).1 :=
  runChecked_evolves s _ _ _ (s.checkNest_evolves l label target _) (fun n t => nestCarrier_evolves t n _)
    fun n t => nestContainer_evolves t l n _

theorem State.unnestParent_evolves (it : Item) : s.evolves F (s.unnestParent l it).1 := by
  unfold State.unnestParent
  split
  · exact s.evolves_refl
  · split
    · exact s.evolves_refl
    · dsimp only
      split <;> exact s.reloadClaim_evolves ..

theorem unnestCarrierFrom_evolves (p : Nat) (c : Carrier) : s.evolves F (unnestCarrierFrom p n c s).1 :=
  (s.dropMember_evolves p _).trans <| (State.subSubtree_evolves _ _ 1).trans (State.movedReply_evolves _ n c _)

theorem unnestCarrier_evolves : s.evolves F (unnestCarrier l n s).1 :=
  withSettled_evolves s n _ fun c b t => by
    have hp := t.unnestParent_evolves (F := F) l (.carrier n)
    split
    · next he => rw [he] at hp; exact hp.trans (State.refuseCarrier_evolves _ n b _ _)
    · next he =>
      rw [he] at hp
      split
      · exact hp.trans (State.refuseCarrier_evolves _ n b _ _)
      · exact hp.trans (unnestCarrierFrom_evolves _ n _ c)

theorem unnestContainer_evolves : s.evolves F (unnestContainer l n s).1 := by
  have hp := s.unnestParent_evolves (F := F) l (.container n)
  unfold unnestContainer
  split
  · next he => rw [he] at hp; exact hp
  · next he =>
    rw [he] at hp
    split
    · exact hp.trans (queueReparent_evolves _ l n _ _)
    · exact hp.trans (State.leaveContainer_evolves _ n)

theorem ownUnnest_evolves (stamp : Option Half) : s.evolves F (ownUnnest l label stamp s).1 :=
  itemRequest_evolves s l label _ _ _ (fun n t => unnestCarrier_evolves t l n) fun n t => unnestContainer_evolves t l n

end Nesting

/-! Unit, tables and readings -/

section Unit

variable (s : State) (l : Link)

theorem ownStatus_evolves : s.evolves F (ownStatus l s).1 := s.setLink_evolves l _ id

theorem ownSetUnit_evolves (f : UnitFields) : s.evolves F (ownSetUnit f s).1 := by
  unfold ownSetUnit
  split
  · exact s.evolves_refl
  · have hmode : ∀ (u : State) old, u.evolves F (u.applyArbiterMode old) := fun u old => by
      unfold State.applyArbiterMode
      split
      · exact u.evolves_refl
      · exact { }
    have hrate : ∀ (u : State) old, u.evolves F (u.applyStaleRate old) := fun u old => by
      unfold State.applyStaleRate
      split
      · exact u.evolves_refl
      · refine u.mapZones_evolves _ fun z => ?_
        split
        · exact u.recompute_evolves z
        · exact z.evolves_refl
    have hinv : ∀ (u : State) old, u.evolves F (u.applyInversion old) := fun u old => by
      refine State.foldl_evolves (fun v n => ?_) _ u
      split
      · exact v.evolves_refl
      · exact v.deliverDoor_evolves _ _
    exact State.evolves.trans { } ((hmode _ _).trans ((hrate _ _).trans (hinv _ _)))

/-- ERASE empties the tables and the queues and leaves the integrals (R140). -/
theorem State.erase_evolves : s.evolves F s.erase where
  zones := List.length_map ..
  zone := (s.mapZones_evolves (F := F) Zone.erased Zone.erased_evolves).zone
  classes := List.length_map ..
  claims _ := Nat.zero_le _
  alerts _ := Nat.zero_le _
  containers _ := tabForm_nil _
  carriers := CarriersEvolve.clear

theorem ownErase_evolves : s.evolves F (ownErase s).1 := by
  unfold ownErase
  split
  · exact s.evolves_refl
  · split
    · exact s.evolves_refl
    · exact s.erase_evolves

theorem ownQuiesceImmediate_evolves : s.evolves F (ownQuiesceImmediate s).1 := by
  unfold ownQuiesceImmediate
  dsimp only
  split
  · exact { }
  · exact s.evolves_refl

theorem ownQuiesceConditional_evolves : s.evolves F (ownQuiesceConditional s).1 := by
  unfold ownQuiesceConditional
  split
  · exact { }
  · exact s.evolves_refl

theorem ownResume_evolves : s.evolves F (ownResume s).1 := by
  unfold ownResume
  split
  · exact s.evolves_refl
  · exact { }

theorem ownSetZone_evolves (f : ZoneFields) : s.evolves F (ownSetZone f s).1 := by
  unfold ownSetZone
  dsimp only
  split
  · exact s.evolves_refl
  · split
    · exact s.evolves_refl
    · exact s.putZone_evolves _ _ _ (State.reconfigure_evolves _ s _)

theorem ownSetClassDefine_evolves (cls : Byte) (v : ClassFields) : s.evolves F (ownSetClassDefine cls v s).1 := by
  unfold ownSetClassDefine
  split
  · exact s.evolves_refl
  · split
    · exact s.evolves_refl
    · exact s.setCls_evolves _ _

theorem reviseInUse_evolves (n : Nat) (v : ClassValues) : s.evolves F (reviseInUse l n v s).1 := by
  unfold reviseInUse
  split
  · exact s.evolves_refl
  · next hroom =>
    exact (s.acceptBatch_evolves _ l _ _ (by simpa using hroom)).trans <|
      (State.setCls_evolves _ n _).trans (State.setCls_evolves _ n _)

theorem ownSetClassRevise_evolves (cls : Byte) (f : ClassFields) : s.evolves F (ownSetClassRevise l cls f s).1 := by
  unfold ownSetClassRevise
  dsimp only
  split
  · exact s.evolves_refl
  · split
    · exact s.evolves_refl
    · split
      · exact s.evolves_refl
      · split
        · exact s.setCls_evolves _ _
        · exact reviseInUse_evolves s l _ _

theorem ownSetClassUndefine_evolves (cls : Byte) : s.evolves F (ownSetClassUndefine cls s).1 := by
  unfold ownSetClassUndefine
  dsimp only
  repeat' split
  all_goals try exact s.evolves_refl
  exact s.setCls_evolves _ _

theorem ownSetGrid_evolves (f : GridFields) : s.evolves F (ownSetGrid f s).1 := by
  unfold ownSetGrid
  split
  · exact s.evolves_refl
  · refine State.evolves.trans { } (State.mapZones_evolves _ _ fun z => ?_)
    split
    · exact State.recompute_evolves z _
    · exact z.evolves_refl

theorem ownAmbient_evolves (zone : Byte) (temp hum : Half) : s.evolves F (ownAmbient zone temp hum s).1 := by
  unfold ownAmbient
  dsimp only
  split
  · exact s.raiseFault_evolves ..
  · split
    · exact s.raiseFault_evolves ..
    · split
      · exact s.raiseFault_evolves ..
      · exact s.putZone_evolves _ _ _ (Zone.evolves_of_eq rfl rfl rfl rfl)

theorem ownZoneInfo_evolves (zone : Byte) : s.evolves F (ownZoneInfo zone s).1 :=
  s.modZone_evolves _ (fun z => { z with doorEvents := 0 }) fun _ => Zone.evolves_of_eq rfl rfl rfl rfl

end Unit

/-! Reading, claims, capture and alerts -/

section Rest

variable (s : State) (l : Link) (label : Label)

theorem ownLookup_evolves (start : Option Byte) : s.evolves F (ownLookup label start s).1 := by
  unfold ownLookup
  split
  · exact s.evolves_refl
  · unfold lookupCarrier
    dsimp only
    split <;> exact s.settleStamped_evolves _
  · unfold lookupContainer
    split <;> exact s.evolves_refl

theorem State.settleItem_evolves (it : Item) : s.evolves F (s.settleItem it) := by
  cases it with
  | carrier n => exact s.settleStamped_evolves n
  | container n => exact s.evolves_refl

theorem claimSettled_evolves (it : Item) : s.evolves F (claimSettled l it s).1 := by
  unfold claimSettled
  split
  · exact s.reloadClaim_evolves l it
  · split
    · next hroom => exact { claims := fun _ => by simpa [State.makeClaim] using hroom }
    · exact s.evolves_refl

theorem ownClaim_evolves : s.evolves F (ownClaim l label s).1 := by
  unfold ownClaim
  repeat' split
  all_goals try exact s.evolves_refl
  exact (s.settleItem_evolves _).trans (claimSettled_evolves _ l _)

theorem releaseSettled_evolves (it : Item) : s.evolves F (releaseSettled it s).1 := by
  unfold releaseSettled
  split
  · exact s.freeClaim_evolves it
  · exact s.evolves_refl

theorem ownRelease_evolves : s.evolves F (ownRelease l label s).1 := by
  unfold ownRelease
  repeat' split
  all_goals try exact s.evolves_refl
  exact (s.settleItem_evolves _).trans (releaseSettled_evolves _ _)

theorem ownWatchArm_evolves : s.evolves F (ownWatchArm s).1 := by
  unfold ownWatchArm
  split
  · exact s.evolves_refl
  · exact { }

theorem dropRank_length_le (r : Nat) : ∀ (n : Nat) (as : List Alert), (dropRank r n as).length ≤ as.length
  | 0, _ => by simp [dropRank]
  | _ + 1, [] => Nat.le_refl _
  | n + 1, a :: as => by
    simp only [dropRank]
    split
    · exact (dropRank_length_le r n as).trans (Nat.le_succ _)
    · exact Nat.succ_le_succ (dropRank_length_le r (n + 1) as)

theorem alertsLeft_length_le (o : AlertOrder) (n : Nat) (as : List Alert) : (alertsLeft o n as).length ≤ as.length := by
  cases o with
  | age => exact List.length_drop .. ▸ Nat.sub_le _ _
  | rank => exact (dropRank_length_le ..).trans ((dropRank_length_le ..).trans (dropRank_length_le ..))

theorem ownAlerts_evolves (maximum : Option Byte) : s.evolves F (ownAlerts maximum s).1 where
  alerts h := (alertsLeft_length_le ..).trans h

end Rest

/-! Batch steps -/

section Steps

variable (s : State) (b : Batch)

theorem stepRow_evolves (k : StepKind) {act : Batch → State → State} (h : ∀ b (u : State), u.evolves F (act b u)) :
    s.evolves F (s.takeDue.takeStep k act) := by
  refine s.takeDue_evolves.trans ?_
  unfold State.takeStep
  split
  · exact State.evolves_refl _
  · exact (State.grantStep_evolves _).trans ((h _ _).trans (State.freeStore_evolves _))

theorem carrierStep_evolves {act : Batch → Nat → State → State × Batch}
    (h : ∀ b n (u : State), u.evolves F (act b n u).1) : s.evolves F (carrierStep act b s) := by
  unfold carrierStep
  split
  · exact s.evolves_refl
  · exact (h _ _ _).trans (State.setOldest_evolves _ _)

theorem State.stepMove_evolves (n t loc : Nat) (c : Carrier) (changed : Bool) :
    s.evolves F (s.stepMove n t loc c changed) := by
  unfold State.stepMove
  dsimp only
  split
  · exact s.bumpCarrierIf_evolves n _
  · exact s.moveCarrier_evolves n c _

theorem State.leaveBehind_evolves (n : Nat) (c : Carrier) (changed : Bool) :
    s.evolves F (s.leaveBehind n c changed) := by
  have hdetach : s.evolves F (s.detach n c changed) := by
    unfold State.detach
    split
    · exact s.bumpCarrierIf_evolves n _
    · exact (s.dropMember_evolves _ _).trans <| (State.subSubtree_evolves _ _ _).trans
        (State.moveCarrier_evolves _ n c _)
  exact hdetach.trans <| (State.markCarrier_evolves _ n false).trans (State.raise_evolves _ _ _ _)

theorem State.stepEntry_evolves (label : Label) (t loc : Nat) (c : Carrier) :
    s.evolves F (s.stepEntry label t loc c).1 := by
  unfold State.stepEntry
  split
  · exact s.evolves_refl
  · exact s.testArrival_evolves ..

theorem moveCarrierAct_evolves (n : Nat) : s.evolves F (moveCarrierAct b n s).1 := by
  unfold moveCarrierAct
  dsimp only
  split
  · exact s.settle_evolves n
  · have hentry := (s.settle_evolves (F := F) n).trans (State.stepEntry_evolves _ (s.labelOf (.carrier n)) b.job.target.1
      b.job.target.2 ‹Carrier›)
    split
    · exact hentry.trans (State.stepMove_evolves _ n _ _ _ _)
    · exact hentry.trans (State.leaveBehind_evolves _ n _ _)

theorem State.bringContainers_evolves (source : Option Nat) (t loc : Nat) (ns : List Nat) :
    s.evolves F (s.bringContainers source t loc ns) :=
  (s.modZoneOpt_evolves source (fun z => { z with containers := z.containers - ns.length })
    fun _ => Zone.evolves_of_eq rfl rfl rfl rfl).trans <|
    (State.modZone_evolves _ t (fun z => { z with containers := z.containers + ns.length })
      fun _ => Zone.evolves_of_eq rfl rfl rfl rfl).trans
      (State.foldl_evolves (fun u n => u.modContainer_evolves n _) ns _)

theorem moveFinalAct_evolves : s.evolves F (moveFinalAct b s) :=
  (s.bringContainers_evolves _ _ _ _).trans <|
    (State.foldl_evolves (fun u _ => u.testFinalArrival_evolves ..) _ _).trans <|
      (State.markAll_evolves _ _ _ _).trans (State.completeBatch_evolves _ b)

theorem stepRemode_evolves (n : Nat) (mode : State → Carrier → ResMode) : s.evolves F (stepRemode n mode s) := by
  unfold stepRemode
  dsimp only
  split
  · exact s.settle_evolves n
  · split
    · exact (s.settle_evolves n).trans (State.bumpCarrierIf_evolves _ n _)
    · exact (s.settle_evolves n).trans <| (State.changeResidence_evolves _ n _).trans <|
        (State.bakeRefusal_evolves _ n true).trans (State.bumpCarrier_evolves _ n)

theorem packFinalAct_evolves : s.evolves F (packFinalAct b s) :=
  (s.modContainer_evolves _ _).trans <| (State.bumpContainer_evolves _ _).trans <|
    (State.markAll_evolves _ _ _ _).trans (State.completeBatch_evolves _ b)

theorem reparentFinalAct_evolves : s.evolves F (reparentFinalAct b s) := by
  unfold reparentFinalAct
  dsimp only
  split
  · exact (s.joinContainer_evolves _ _).trans <| (State.markAll_evolves _ _ _ _).trans (State.completeBatch_evolves _ b)
  · exact (s.leaveContainer_evolves _).trans <| (State.markAll_evolves _ _ _ _).trans (State.completeBatch_evolves _ b)

theorem revisionAct_evolves : s.evolves F (revisionAct b s) := by
  have hslot : s.evolves F (s.reviseSlot b.done b.job.revised) := by
    unfold State.reviseSlot
    split
    · exact s.evolves_refl
    · split
      · exact s.settleStamped_evolves _
      · exact s.evolves_refl
  unfold revisionAct
  dsimp only
  split
  · exact hslot.trans (State.setOldest_evolves _ _)
  · exact hslot.trans (State.completeBatch_evolves _ b)

end Steps

/-! Time and power -/

section Time

variable (s : State)

theorem State.minute_evolves : s.evolves F s.minute := by
  unfold State.minute
  split
  · exact s.evolves_refl
  · split
    · exact (s.mapZones_evolves _ Zone.minute_evolves).trans { }
    · exact { }

theorem State.drain_evolves : s.evolves F s.drain := by
  unfold State.drain
  split
  · exact s.evolves_refl
  · exact State.evolves.trans { } ((State.settleStamped_evolves _ _).trans (State.freeStore_evolves _))

theorem State.lapseItem_evolves (it : Item) : s.evolves F (s.lapseItem it) := by
  unfold State.lapseItem
  split
  · exact s.evolves_refl
  · split
    · exact s.lapse_evolves _
    · exact s.evolves_refl

theorem State.takeDoor_evolves (line : Nat) (opened : Bool) : s.evolves F (s.takeDoor line opened) := by
  unfold State.takeDoor
  split
  · exact State.evolves.trans { } (State.deliverDoor_evolves _ line opened)
  · exact s.evolves_refl

/-- What a loss of the volatile domain, and a loss of its links, leave: the retained domain (R191). -/
theorem State.loseVolatile_evolves : s.evolves F s.loseVolatile where
  claims _ := Nat.zero_le _
  hostBuffer _ := Nat.zero_le _
  floorBuffer _ := Nat.zero_le _

theorem State.toRetain_evolves : s.evolves F s.toRetain := s.loseVolatile_evolves.trans { }

theorem State.beginWindDown_evolves : s.evolves F s.beginWindDown where
  claims _ := Nat.zero_le _
  hostBuffer _ := Nat.zero_le _
  floorBuffer _ := Nat.zero_le _

theorem State.assertReset_evolves : s.evolves F s.assertReset where
  claims _ := Nat.zero_le _
  hostBuffer _ := Nat.zero_le _
  floorBuffer _ := Nat.zero_le _

theorem State.startVolatile_evolves (pins : StartPins) : s.evolves F (s.startVolatile pins) where
  claims _ := Nat.zero_le _
  hostBuffer _ := Nat.zero_le _
  floorBuffer _ := Nat.zero_le _

theorem State.raiseOutage_evolves (m : Nat) : s.evolves F (s.raiseOutage m) := by
  unfold State.raiseOutage
  split
  · exact s.raise_evolves ..
  · exact s.evolves_refl

theorem State.warmStart_evolves (kind : StartKind) (pins : StartPins) : s.evolves F (s.warmStart kind pins) :=
  (s.startVolatile_evolves pins).trans <|
    (State.mapZones_evolves _ ((s.startVolatile pins).restartZone s.missed) fun z => State.restartZone_evolves z _ _).trans <|
      State.evolves.trans { } (State.raiseOutage_evolves _ _)

theorem State.idle_evolves : s.evolves F s.idle := by
  unfold State.idle
  split
  · refine s.takeDue_evolves.trans ?_
    unfold State.tick
    split
    · exact { }
    · exact State.evolves_refl _
  · exact State.evolves.trans { } ((State.takeDue_evolves _).trans (State.takeCharacter_evolves _ _ _))

end Time

/-! Every command -/

/-- The commands by which the account may be lost: a cold start, and the loss of power before it (R192, R197). -/
def losesPower : Instr → Bool
  | .coldStart _ => true
  | .retainEntry vback => !vback
  | .mainPowerLoss vback => !vback
  | .backupLoss => true
  | _ => false

/-- A command that is no request takes the due events and then makes its own change. -/
theorem next_evolves {s t u : State} (h : (.next u : Result) = .next t) (hu : s.evolves F u) : s.evolves F t :=
  Host.Outcome.next.inj h ▸ hu

theorem ite_evolves {s u v : State} {p : Prop} [Decidable p] (hu : s.evolves F u) (hv : s.evolves F v) :
    s.evolves F (if p then u else v) := by
  split
  · exact hu
  · exact hv

/-- Every command that does not lose the power evolves the state, and forms a carrier only in a free slot. -/
theorem exec_evolves {c : Instr} {s t : State} (hF : ∀ n, tabGet s.carriers n = none → F n) (hc : losesPower c = false)
    (h : exec c s = .next t) : s.evolves F t := by
  have hdue := s.takeDue_evolves (F := F)
  cases c with
  | minuteEvent => exact next_evolves h (hdue.trans (State.minute_evolves _))
  | keyEvent zone => exact next_evolves h hdue
  | stalenessExpiry zone => exact next_evolves h (ite_evolves (s.takeExpiry_evolves _) s.evolves_refl)
  | doorGraceReached zone => exact next_evolves h (ite_evolves (s.takeGrace_evolves _) s.evolves_refl)
  | drain => exact next_evolves h (ite_evolves (hdue.trans (State.drain_evolves _)) hdue)
  | goodFrame l body check =>
    have hgood := hdue.trans <| (State.hunt_evolves s.takeDue l).trans (State.bufferFrame_evolves _ l body)
    have hbad := hdue.trans <| (State.hunt_evolves s.takeDue l).trans (State.discardFrame_evolves _ l)
    change execGoodFrame l body check s = _ at h
    unfold execGoodFrame at h
    dsimp only at h
    split at h
    · exact next_evolves h (ite_evolves hgood hbad)
    · exact next_evolves h hdue
  | badFrame l cause =>
    exact next_evolves h <| ite_evolves
      (hdue.trans <| (State.hunt_evolves s.takeDue l).trans (State.discardFrame_evolves _ l)) hdue
  | frameSilence l received =>
    exact next_evolves h <| ite_evolves
      (hdue.trans <| (State.hunt_evolves s.takeDue l).trans (State.discardFrame_evolves _ l)) hdue
  | replySent l => exact next_evolves h (ite_evolves (hdue.trans (State.replyGone_evolves _ l)) hdue)
  | status l tag => exact serve_evolves s (fun u _ => ownStatus_evolves u l) h
  | setClock l tag w => exact serve_evolves s (fun u _ => { }) h
  | setUnit l tag f => exact serve_evolves s (fun u _ => ownSetUnit_evolves u f) h
  | erase l tag => exact serve_evolves s (fun u _ => ownErase_evolves u) h
  | quiesceImmediate l tag => exact serve_evolves s (fun u _ => ownQuiesceImmediate_evolves u) h
  | quiesceConditional l tag => exact serve_evolves s (fun u _ => ownQuiesceConditional_evolves u) h
  | resume l tag => exact serve_evolves s (fun u _ => ownResume_evolves u) h
  | enrolCarrier l tag label cls m p k loc =>
    exact serve_evolves s (fun u hu => ownEnrolCarrier_evolves u l label cls m p k loc (hu ▸ hF)) h
  | enrolContainer l tag label p loc => exact serve_evolves s (fun u _ => ownEnrolContainer_evolves u l label p loc) h
  | openItem l tag label stamp loc => exact serve_evolves s (fun u _ => ownOpen_evolves u l label stamp loc) h
  | place l tag label stamp loc => exact serve_evolves s (fun u _ => ownPlace_evolves u l label stamp loc) h
  | pack l tag label stamp => exact serve_evolves s (fun u _ => ownPack_evolves u l label stamp) h
  | nest l tag label target stamp => exact serve_evolves s (fun u _ => ownNest_evolves u l label target stamp) h
  | unnest l tag label stamp => exact serve_evolves s (fun u _ => ownUnnest_evolves u l label stamp) h
  | retire l tag label stamp => exact serve_evolves s (fun u _ => ownRetire_evolves u l label stamp) h
  | hold l tag label reason stamp => exact serve_evolves s (fun u _ => ownHold_evolves u l label reason stamp) h
  | unhold l tag label stamp => exact serve_evolves s (fun u _ => ownUnhold_evolves u l label stamp) h
  | evacuate l tag zone loc => exact serve_evolves s (fun u _ => ownEvacuate_evolves u l zone loc) h
  | lookup l tag label start => exact serve_evolves s (fun u _ => ownLookup_evolves u label start) h
  | zoneInfo l tag zone => exact serve_evolves s (fun u _ => ownZoneInfo_evolves u zone) h
  | residents l tag zone start => exact serve_evolves s (fun u _ => u.evolves_refl) h
  | batchInfo l tag start => exact serve_evolves s (fun u _ => u.evolves_refl) h
  | classInfo l tag cls => exact serve_evolves s (fun u _ => u.evolves_refl) h
  | setZone l tag f => exact serve_evolves s (fun u _ => ownSetZone_evolves u f) h
  | setClassDefine l tag cls v => exact serve_evolves s (fun u _ => ownSetClassDefine_evolves u cls v) h
  | setClassRevise l tag cls v => exact serve_evolves s (fun u _ => ownSetClassRevise_evolves u l cls v) h
  | setClassUndefine l tag cls => exact serve_evolves s (fun u _ => ownSetClassUndefine_evolves u cls) h
  | setGrid l tag f => exact serve_evolves s (fun u _ => ownSetGrid_evolves u f) h
  | ambient l tag zone temp hum => exact serve_evolves s (fun u hu => ownAmbient_evolves u zone temp hum) h
  | claim l tag label => exact serve_evolves s (fun u _ => ownClaim_evolves u l label) h
  | release l tag label => exact serve_evolves s (fun u _ => ownRelease_evolves u l label) h
  | watchSet l tag base k mask block => exact serve_evolves s (fun u _ => { }) h
  | watchArm l tag => exact serve_evolves s (fun u _ => ownWatchArm_evolves u) h
  | watchDisarm l tag => exact serve_evolves s (fun u _ => { }) h
  | capRead l tag => exact serve_evolves s (fun u _ => u.evolves_refl) h
  | capClear l tag => exact serve_evolves s (fun u _ => { }) h
  | alerts l tag maximum => exact serve_evolves s (fun u _ => ownAlerts_evolves u maximum) h
  | moveCarrierStep =>
    exact next_evolves h (stepRow_evolves s _ fun b u => carrierStep_evolves u b fun b n u => moveCarrierAct_evolves u b n)
  | moveFinalStep => exact next_evolves h (stepRow_evolves s _ fun b u => moveFinalAct_evolves u b)
  | packUnpackCarrierStep =>
    exact next_evolves h (stepRow_evolves s _ fun b u => carrierStep_evolves u b fun _ n u => stepRemode_evolves u n _)
  | packUnpackFinalStep => exact next_evolves h (stepRow_evolves s _ fun b u => packFinalAct_evolves u b)
  | reparentCarrierStep =>
    exact next_evolves h (stepRow_evolves s _ fun b u => carrierStep_evolves u b fun _ n u => stepRemode_evolves u n _)
  | reparentFinalStep => exact next_evolves h (stepRow_evolves s _ fun b u => reparentFinalAct_evolves u b)
  | classRevisionStep => exact next_evolves h (stepRow_evolves s _ fun b u => revisionAct_evolves u b)
  | doorOpening line => exact next_evolves h (hdue.trans (State.takeDoor_evolves _ _ true))
  | doorClosing line => exact next_evolves h (hdue.trans (State.takeDoor_evolves _ _ false))
  | claimSecond =>
    have hcount : s.takeDue.evolves F s.takeDue.countSecond := { claims := by simp [State.countSecond] }
    exact next_evolves h (ite_evolves (hdue.trans hcount) hdue)
  | claimLapsed item => exact next_evolves h (ite_evolves (s.lapseItem_evolves item) s.evolves_refl)
  | powerFailWarning => exact next_evolves h (ite_evolves (hdue.trans (State.beginWindDown_evolves _)) hdue)
  | retainEntry vback =>
    obtain rfl : vback = true := by simpa [losesPower] using hc
    exact next_evolves h (ite_evolves (hdue.trans (State.toRetain_evolves _)) hdue)
  | mainPowerLoss vback =>
    obtain rfl : vback = true := by simpa [losesPower] using hc
    exact next_evolves h (ite_evolves (hdue.trans ((State.toRetain_evolves _).trans { })) hdue)
  | backupLoss => cases hc
  | warmStart pins => exact next_evolves h (ite_evolves (s.warmStart_evolves _ _) s.evolves_refl)
  | coldStart pins => cases hc
  | resetAsserted => exact next_evolves h (ite_evolves (hdue.trans (State.assertReset_evolves _)) hdue)
  | resetReleased pins => exact next_evolves h (ite_evolves (s.warmStart_evolves _ _) s.evolves_refl)

end Sys2Proof.Machine

/-! PROOFS. Invariants of a run: the form of the store, the conservation of exposure, the integrals and the SPENT
carriers, read off what every step makes of the state. -/

namespace Sys2Proof.Machine

-- One proof after another: elaborated side by side, so many short ones outgrow the memory a compile may take.
set_option Elab.async false

open Sys2Proof

/-! A part without power, and a cold start -/

/-- Every table and queue in form, every account conserved, and no carrier live. -/
structure State.cleared (s : State) : Prop where
  form : s.bounded ∧ s.tabled ∧ s.ordered
  conserved : s.conserved
  free : ∀ n, s.carrier n = none

theorem State.unpowered_cleared : State.unpowered.cleared where
  form := by
    refine ⟨by unfold State.bounded; decide, by unfold State.tabled; decide, fun z hz => ?_⟩
    obtain rfl := List.eq_of_mem_replicate hz
    exact ⟨List.Pairwise.nil, List.Pairwise.nil⟩
  conserved e he := absurd he (List.not_mem_nil)
  free _ := rfl

/-- What a cleared state becomes, with no carrier formed, is cleared. -/
theorem State.cleared.evolve {s t : State} (hs : s.cleared) (h : s.evolves (fun _ => False) t) : t.cleared where
  form := h.form hs.form
  conserved := h.conserved hs.conserved
  free n := h.carriers.born hs.form.2.1.1 n id (hs.free n)

theorem State.toOff_cleared (s : State) : s.toOff.cleared := State.unpowered_cleared.evolve { }

theorem State.coldStart_cleared (s : State) (pins : StartPins) : (s.coldStart pins).cleared := by
  unfold State.coldStart
  refine State.unpowered_cleared.evolve (State.evolves.trans ?_ (State.raiseFault_evolves _ _ _ _ _ _))
  exact { }

theorem State.reset_cleared : State.reset.cleared := State.unpowered_cleared.evolve { alerts := fun _ => by decide }

theorem ite_evolves_or_cleared {F : Nat → Prop} {s u v : State} {p : Prop} [Decidable p] (hu : u.cleared)
    (hv : s.evolves F v) : s.evolves F (if p then u else v) ∨ (if p then u else v).cleared := by
  split
  · exact Or.inr hu
  · exact Or.inl hv

/-- A command by which the power is lost, or returns after a loss, leaves a cleared state where it has effect. -/
theorem exec_losesPower {F : Nat → Prop} {c : Instr} {s t : State} (hc : losesPower c = true)
    (h : exec c s = .next t) : s.evolves F t ∨ t.cleared := by
  have hdue := s.takeDue_evolves (F := F)
  cases c with
  | retainEntry vback =>
    obtain rfl : vback = false := by simpa [losesPower] using hc
    exact Host.Outcome.next.inj h ▸ ite_evolves_or_cleared s.takeDue.toOff_cleared hdue
  | mainPowerLoss vback =>
    obtain rfl : vback = false := by simpa [losesPower] using hc
    exact Host.Outcome.next.inj h ▸ ite_evolves_or_cleared s.takeDue.toOff_cleared hdue
  | backupLoss => exact Host.Outcome.next.inj h ▸ ite_evolves_or_cleared s.toOff_cleared s.evolves_refl
  | coldStart pins => exact Host.Outcome.next.inj h ▸ ite_evolves_or_cleared (s.coldStart_cleared pins) s.evolves_refl
  | _ => cases hc

/-- What every command can do: it evolves the state, a carrier formed only in a free slot, or leaves it cleared. -/
theorem exec_evolves_or_cleared {c : Instr} {s t : State} (h : exec c s = .next t) :
    s.evolves (fun n => s.carrier n = none) t ∨ t.cleared := by
  cases hc : losesPower c with
  | false => exact Or.inl (exec_evolves (fun _ => id) hc h)
  | true => exact exec_losesPower hc h

/-- What every step can do. -/
theorem step_evolves_or_cleared {s t : State} (h : step s = .next t) :
    s.evolves (fun n => s.carrier n = none) t ∨ t.cleared := by
  unfold step at h
  split at h
  · cases h
    exact Or.inl s.idle_evolves
  · exact (exec_evolves_or_cleared h).imp (State.evolves.trans { }) id

/-! The statements -/

/-- Settles O56: what every step makes of the state is in form, since each operation evolves it (`exec_evolves`) and a
part that loses its power is left with the cold tables. -/
theorem storeKeepsItsForm : Obligations.StoreKeepsItsForm := fun _ _ hs h =>
  (step_evolves_or_cleared h).elim (fun he => he.form hs) fun hc => hc.form

/-- Settles O57: settles, residence changes and bake completions keep an account conserved (`settleRecord_evolves`,
`moveRecord_evolves`), and a new carrier's is. -/
theorem exposureIsConserved : Obligations.ExposureIsConserved := fun _ _ hs h =>
  (step_evolves_or_cleared h).elim (fun he => he.conserved hs) fun hc => hc.conserved

/-- Settles O60: a slot that was live as the step began is not formed anew, so a SPENT record in it stays SPENT. -/
theorem spentStaysSpent : Obligations.SpentStaysSpent := by
  intro s t n c d htab h hc hspent hd
  rcases step_evolves_or_cleared h with he | ht
  · exact he.carriers.spent htab.1 n (by simp [hc]) c d hc hspent hd
  · rw [ht.free n] at hd
    cases hd

/-- The exceptions of R34's statement are the commands that lose the power. -/
theorem losesPower_eq_false {c : Instr} (h : (∀ pins, c ≠ .coldStart pins) ∧ c ≠ .retainEntry false ∧
    c ≠ .mainPowerLoss false ∧ c ≠ .backupLoss) : losesPower c = false := by
  obtain ⟨hcold, hretain, hmain, hbackup⟩ := h
  cases c with
  | coldStart pins => exact absurd rfl (hcold pins)
  | retainEntry vback =>
    cases vback with
    | true => rfl
    | false => exact absurd rfl hretain
  | mainPowerLoss vback =>
    cases vback with
    | true => rfl
    | false => exact absurd rfl hmain
  | backupLoss => exact absurd rfl hbackup
  | _ => rfl

/-- Settles O58: each operation leaves every zone's integrals as they are or raises them (`State.evolves.zone`). -/
theorem integralsNeverDecrease : Obligations.IntegralsNeverDecrease := by
  refine ⟨fun c s t hcold hretain hmain hbackup h => ?_, fun s t hfront h => ?_⟩
  · exact (exec_evolves (fun _ => id) (losesPower_eq_false ⟨hcold, hretain, hmain, hbackup⟩) h).integralsKept
  · unfold step at h
    split at h
    · cases h
      exact (s.idle_evolves (F := fun _ => True)).integralsKept
    · next c rest hp =>
      have hc := losesPower_eq_false (hfront c (by simp [hp]))
      exact (State.evolves.trans { } (exec_evolves (fun _ => id) hc h)).integralsKept

/-- Settles O59: State.reset is a cleared state with one alert queued. -/
theorem invariantsAtReset : Obligations.InvariantsAtReset :=
  ⟨State.reset_cleared.form.1, State.reset_cleared.form.2.1, State.reset_cleared.form.2.2, State.reset_cleared.conserved⟩

/-- Settles O1: `step` matches on the queue, and the front command is run on the state with the rest. -/
theorem stepRunsFrontCommand : Obligations.StepRunsFrontCommand := fun _ _ _ => rfl

/-- Settles O4: the cold start of an unpowered part captures BACKUP_LOST in an empty record and raises its one alert in
an empty queue. -/
theorem resetIsAColdStart : Obligations.ResetIsAColdStart := by
  unfold Obligations.ResetIsAColdStart
  have hcold : State.unpowered.startsCold = true := rfl
  exact (execColdStart_of_startsCold hcold _).trans rfl

end Sys2Proof.Machine

/-! PROOFS. The queue and the idle step (3.4), and the indicators (6.4). -/

namespace Sys2Proof.Machine

-- One proof after another: elaborated side by side, so many short ones outgrow the memory a compile may take.
set_option Elab.async false

open Sys2Proof

/-! Requests leave the fixed fields alone -/

/-- Every request is served, and its owner touches no fixed field. -/
theorem exec_request_fixed {c : Instr} (s : State) (h : requestOf c ≠ none) :
    ∃ t, exec c s = .next t ∧ t.fixed = s.fixed := by
  cases c
  all_goals first
    | exact absurd rfl h
    | exact serve_fixed _ _ _ _ fun t => by simp

/-! The queue and the lines belong to the outside -/

/-- What the outside gives the part: the commands that wait, and the characters on the lines. -/
def State.outside (s : State) : List Instr × List (Link × Character) := (s.pending, s.line)

theorem State.outside_of_fixed {s t : State} (h : t.fixed = s.fixed) : t.outside = s.outside :=
  Prod.ext (congrArg Fixed.pending h) (congrArg Fixed.line h)

section Outside

variable (s : State)

@[simp] theorem State.takeDue_outside : s.takeDue.outside = s.outside := State.outside_of_fixed s.takeDue_fixed

theorem State.minute_outside : s.minute.outside = s.outside := by
  unfold State.minute
  split
  · rfl
  · split <;> rfl

theorem State.drain_outside : s.drain.outside = s.outside := by
  unfold State.drain
  split
  · rfl
  · next slot _ =>
    exact State.outside_of_fixed ((State.freeStore_fixed _).trans ((State.settleStamped_fixed _ slot).trans rfl))

theorem State.replyGone_fixed (l : Link) : (s.replyGone l).fixed = s.fixed := by
  unfold State.replyGone
  split
  · exact (State.takeFrame_fixed _ l).trans (s.setHand_fixed l none)
  · rfl

theorem State.raiseOutage_outside (m : Nat) : (s.raiseOutage m).outside = s.outside := by
  unfold State.raiseOutage
  split
  · exact State.outside_of_fixed (s.raise_fixed _ _ _)
  · rfl

theorem State.warmStart_outside (kind : StartKind) (pins : StartPins) : (s.warmStart kind pins).outside = s.outside :=
  State.raiseOutage_outside _ _

theorem State.coldStart_outside (pins : StartPins) : (s.coldStart pins).outside = s.outside :=
  (State.outside_of_fixed (State.raiseFault_fixed _ _ _ _ _ _)).trans rfl

theorem State.toOff_outside : s.toOff.outside = s.outside := rfl

theorem State.toRetain_outside : s.toRetain.outside = s.outside := rfl

theorem State.countSecond_outside : s.countSecond.outside = s.outside := rfl

theorem State.beginWindDown_outside : s.beginWindDown.outside = s.outside := rfl

theorem State.assertReset_outside : s.assertReset.outside = s.outside := rfl

theorem State.lapse_fixed (c : Claim) : (s.lapse c).fixed = s.fixed :=
  (State.raise_fixed _ _ _ _).trans (s.freeClaim_fixed _)

theorem State.lapseItem_fixed (it : Item) : (s.lapseItem it).fixed = s.fixed := by
  unfold State.lapseItem
  split
  · rfl
  · split
    · exact s.lapse_fixed _
    · rfl

theorem State.takeDoor_outside (line : Nat) (opened : Bool) : (s.takeDoor line opened).outside = s.outside := by
  unfold State.takeDoor
  split
  · exact (State.outside_of_fixed (State.deliverDoor_fixed _ line opened)).trans rfl
  · rfl

theorem carrierStep_outside {act : Batch → Nat → State → State × Batch}
    (h : ∀ b n (u : State), (act b n u).1.fixed = u.fixed) (b : Batch) (u : State) :
    (carrierStep act b u).fixed = u.fixed := by
  unfold carrierStep
  split
  · rfl
  · exact (State.setOldest_fixed _ _).trans (h _ _ _)

/-- A batch step leaves the fixed fields alone when its act does. -/
theorem takeStep_outside {k : StepKind} {act : Batch → State → State} (h : ∀ b (u : State), (act b u).fixed = u.fixed) :
    (s.takeDue.takeStep k act).outside = s.outside := by
  refine (State.outside_of_fixed ?_).trans s.takeDue_outside
  unfold State.takeStep
  split
  · rfl
  · rw [State.freeStore_fixed, h, State.grantStep_fixed]

theorem ite_outside {u v : State} {p : Prop} [Decidable p] (hu : u.outside = s.outside) (hv : v.outside = s.outside) :
    (if p then u else v).outside = s.outside := by
  split
  · exact hu
  · exact hv

end Outside

/-! The acts of the batch steps -/

section Acts

variable (s : State) (b : Batch) (n : Nat)

theorem State.detach_fixed (c : Carrier) (changed : Bool) : (s.detach n c changed).fixed = s.fixed := by
  unfold State.detach
  split
  · exact s.bumpCarrierIf_fixed n changed
  · simp

theorem moveCarrierAct_fixed : (moveCarrierAct b n s).1.fixed = s.fixed := by
  unfold moveCarrierAct
  dsimp only
  split
  · exact s.settle_fixed n
  · next c _ =>
    have hentry : ((s.settle n).1.stepEntry (s.labelOf (.carrier n)) b.job.target.1 b.job.target.2 c).1.fixed =
        s.fixed := by
      unfold State.stepEntry
      split
      · exact s.settle_fixed n
      · exact (State.testArrival_fixed _ _ _ _ _).trans (s.settle_fixed n)
    split
    · refine Eq.trans ?_ hentry
      unfold State.stepMove
      dsimp only
      split
      · exact State.bumpCarrierIf_fixed _ n _
      · exact State.moveCarrier_fixed _ n _ _
    · refine Eq.trans ?_ hentry
      simp [State.leaveBehind, State.detach_fixed]

theorem stepRemode_fixed (mode : State → Carrier → ResMode) : (stepRemode n mode s).fixed = s.fixed := by
  unfold stepRemode
  dsimp only
  split
  · exact s.settle_fixed n
  · split <;> simp

theorem State.bringContainers_fixed (source : Option Nat) (t loc : Nat) (ns : List Nat) :
    (s.bringContainers source t loc ns).fixed = s.fixed :=
  (State.foldl_fixed _ (fun u m => u.modContainer_fixed m _) ns _).trans
    ((State.modZone_fixed _ _ _).trans (s.modZoneOpt_fixed _ _))

theorem moveFinalAct_fixed : (moveFinalAct b s).fixed = s.fixed := by
  unfold moveFinalAct State.watchTops
  simp only [State.completeBatch_fixed, State.markAll_fixed]
  exact (State.foldl_fixed _ (fun u m => u.testFinalArrival_fixed _ _ _) _ _).trans (s.bringContainers_fixed _ _ _ _)

theorem packFinalAct_fixed : (packFinalAct b s).fixed = s.fixed := by
  unfold packFinalAct
  simp

theorem reparentFinalAct_fixed : (reparentFinalAct b s).fixed = s.fixed := by
  unfold reparentFinalAct
  simp only [State.completeBatch_fixed, State.markAll_fixed]
  split
  · exact s.joinContainer_fixed _ _
  · exact s.leaveContainer_fixed _

theorem revisionAct_fixed : (revisionAct b s).fixed = s.fixed := by
  have hslot : (s.reviseSlot b.done b.job.revised).fixed = s.fixed := by
    unfold State.reviseSlot
    split
    · rfl
    · split
      · exact s.settleStamped_fixed _
      · rfl
  unfold revisionAct
  dsimp only
  split
  · exact (State.setOldest_fixed _ _).trans hslot
  · exact (State.completeBatch_fixed _ _).trans hslot

end Acts

/-- Every command gives a next state, in which the queue and the lines are as they were. -/
theorem exec_outside (c : Instr) (s : State) : ∃ t, exec c s = .next t ∧ t.outside = s.outside := by
  by_cases hreq : requestOf c = none
  case neg =>
    obtain ⟨t, ht, hfix⟩ := exec_request_fixed s hreq
    exact ⟨t, ht, State.outside_of_fixed hfix⟩
  have hdue := s.takeDue_outside
  cases c with
  | minuteEvent => exact ⟨_, rfl, s.takeDue.minute_outside.trans hdue⟩
  | keyEvent zone => exact ⟨_, rfl, hdue⟩
  | stalenessExpiry zone => exact ⟨_, rfl, ite_outside s (State.outside_of_fixed (s.takeExpiry_fixed _)) rfl⟩
  | doorGraceReached zone => exact ⟨_, rfl, ite_outside s (State.outside_of_fixed (s.takeGrace_fixed _)) rfl⟩
  | drain => exact ⟨_, rfl, ite_outside s (s.takeDue.drain_outside.trans hdue) hdue⟩
  | goodFrame l body check =>
    change ∃ t, execGoodFrame l body check s = _ ∧ _
    unfold execGoodFrame
    dsimp only
    split
    · exact ⟨_, rfl, ite_outside s
        ((State.outside_of_fixed ((State.bufferFrame_fixed _ l body).trans (State.hunt_fixed _ l))).trans hdue)
        ((State.outside_of_fixed ((State.discardFrame_fixed _ l).trans (State.hunt_fixed _ l))).trans hdue)⟩
    · exact ⟨_, rfl, hdue⟩
  | badFrame l cause => exact ⟨_, rfl, ite_outside s
      ((State.outside_of_fixed ((State.discardFrame_fixed _ l).trans (State.hunt_fixed _ l))).trans hdue) hdue⟩
  | frameSilence l received => exact ⟨_, rfl, ite_outside s
      ((State.outside_of_fixed ((State.discardFrame_fixed _ l).trans (State.hunt_fixed _ l))).trans hdue) hdue⟩
  | replySent l =>
    exact ⟨_, rfl, ite_outside s ((State.outside_of_fixed (State.replyGone_fixed _ l)).trans hdue) hdue⟩
  | moveCarrierStep =>
    exact ⟨_, rfl, takeStep_outside s (carrierStep_outside fun b n u => moveCarrierAct_fixed u b n)⟩
  | moveFinalStep => exact ⟨_, rfl, takeStep_outside s fun b u => moveFinalAct_fixed u b⟩
  | packUnpackCarrierStep =>
    exact ⟨_, rfl, takeStep_outside s (carrierStep_outside fun _ n u => stepRemode_fixed u n _)⟩
  | packUnpackFinalStep => exact ⟨_, rfl, takeStep_outside s fun b u => packFinalAct_fixed u b⟩
  | reparentCarrierStep =>
    exact ⟨_, rfl, takeStep_outside s (carrierStep_outside fun _ n u => stepRemode_fixed u n _)⟩
  | reparentFinalStep => exact ⟨_, rfl, takeStep_outside s fun b u => reparentFinalAct_fixed u b⟩
  | classRevisionStep => exact ⟨_, rfl, takeStep_outside s fun b u => revisionAct_fixed u b⟩
  | doorOpening line => exact ⟨_, rfl, (s.takeDue.takeDoor_outside _ _).trans hdue⟩
  | doorClosing line => exact ⟨_, rfl, (s.takeDue.takeDoor_outside _ _).trans hdue⟩
  | claimSecond => exact ⟨_, rfl, ite_outside s (s.takeDue.countSecond_outside.trans hdue) hdue⟩
  | claimLapsed item => exact ⟨_, rfl, ite_outside s (State.outside_of_fixed (s.lapseItem_fixed item)) rfl⟩
  | powerFailWarning => exact ⟨_, rfl, ite_outside s (s.takeDue.beginWindDown_outside.trans hdue) hdue⟩
  | retainEntry vback =>
    have hoff := s.takeDue.toOff_outside.trans hdue
    exact ⟨_, rfl, ite_outside s (ite_outside s (s.takeDue.toRetain_outside.trans hdue) hoff) hdue⟩
  | mainPowerLoss vback =>
    have hoff := s.takeDue.toOff_outside.trans hdue
    have hretain := s.takeDue.toRetain_outside.trans hdue
    have hinvalid : ({ s.takeDue.toRetain with checkWord := false } : State).outside = s.outside := hretain
    exact ⟨_, rfl, ite_outside s (ite_outside s hinvalid hoff) hdue⟩
  | backupLoss => exact ⟨_, rfl, ite_outside s s.toOff_outside rfl⟩
  | warmStart pins => exact ⟨_, rfl, ite_outside s (s.warmStart_outside _ pins) rfl⟩
  | coldStart pins => exact ⟨_, rfl, ite_outside s (s.coldStart_outside pins) rfl⟩
  | resetAsserted => exact ⟨_, rfl, ite_outside s (s.takeDue.assertReset_outside.trans hdue) hdue⟩
  | resetReleased pins => exact ⟨_, rfl, ite_outside s (s.warmStart_outside _ pins) rfl⟩
  | _ => cases hreq

/-- Settles O2: a request is served by an owner that touches no fixed field, and each other command is made of acts that
leave the queue and the lines alone. -/
theorem everyCommandCompletes : Obligations.EveryCommandCompletes := by
  refine ⟨fun c s => ?_, fun c s t hreq ht => ?_⟩
  · obtain ⟨t, ht, hout⟩ := exec_outside c s
    exact ⟨t, ht, congrArg Prod.fst hout, congrArg Prod.snd hout⟩
  · obtain ⟨u, hu, hfix⟩ := exec_request_fixed s hreq
    rw [hu] at ht
    cases ht
    exact hfix

/-! The idle step (log entries 4, 6 and 23) -/

section Idle

variable {s : State} {l : Link} {c : Character} {rest : List (Link × Character)}

theorem step_of_no_command (h : s.pending = []) : step s = .next s.idle := by
  simp [step, h]

theorem State.idle_of_no_character (h : s.line = []) : s.idle = s.takeDue.tick := by
  simp [State.idle, h]

theorem State.idle_of_character (h : s.line = (l, c) :: rest) :
    s.idle = ({ s with line := rest } : State).takeDue.takeCharacter l c := by
  simp [State.idle, h]

@[simp] theorem State.takeDue_running (s : State) : s.takeDue.running = s.running := by
  have hpower : s.takeDue.power = s.power := congrArg Fixed.power s.takeDue_fixed
  have hreset : s.takeDue.resetAsserted = s.resetAsserted := congrArg Fixed.resetAsserted s.takeDue_fixed
  simp [State.running, hpower, hreset]

@[simp] theorem State.takeDue_patternPhase (s : State) : s.takeDue.patternPhase = s.patternPhase :=
  congrArg Fixed.patternPhase s.takeDue_fixed

theorem State.tick_of_running (h : s.running = true) :
    s.tick = { s with patternPhase := (s.patternPhase + 1) % 16 } := if_pos h

theorem State.tick_of_not_running (h : s.running = false) : s.tick = s := if_neg (by simp [h])

theorem State.takeCharacter_of_receiving (h : s.receiving = true) : s.takeCharacter l c = s.takeByte l c.data := if_pos h

theorem State.takeCharacter_of_not_receiving (h : s.receiving = false) : s.takeCharacter l c = s :=
  if_neg (by simp [h])

theorem State.calm_iff : s.calm = true ↔ s.running = true ∧ s.quiet = true := by simp [State.calm]

theorem State.ready_iff : s.ready = true ↔ s.receiving = true ∧ s.quiet = true := by simp [State.ready]

theorem State.not_receiving_of_not_running (h : s.running = false) : s.receiving = false := by
  simp [State.receiving, h]

theorem State.not_receiving_of_windDown (h : s.windDown = true) : s.receiving = false := by
  simp [State.receiving, h]

/-- The step that takes the next character of a line, when no event is outstanding. -/
theorem step_character (hp : s.pending = []) (hl : s.line = (l, c) :: rest) (hq : s.running = true → s.quiet = true) :
    step s = .next (({ s with line := rest } : State).takeCharacter l c) := by
  have hdue : ({ s with line := rest } : State).takeDue = { s with line := rest } := State.takeDue_of_calm hq
  rw [step_of_no_command hp, State.idle_of_character hl, hdue]

end Idle

/-! Indicator patterns (R119, R120) -/

section Lamps

theorem Pattern.higher_order (a b : Pattern) : (a.higher b).order = max a.order b.order := by
  unfold Pattern.higher
  split <;> omega

theorem Pattern.higher_eq (a b : Pattern) : a.higher b = a ∨ a.higher b = b := by
  unfold Pattern.higher
  split
  · exact Or.inr rfl
  · exact Or.inl rfl

/-- The pattern of a line after one more zone. -/
def lampStep (line : Nat) (p : Pattern) (z : Zone) : Pattern :=
  if z.cfg.indicatorLine = some line then p.higher z.pattern else p

theorem lampStep_order (line : Nat) (p : Pattern) (z : Zone) : p.order ≤ (lampStep line p z).order := by
  unfold lampStep
  split
  · rw [Pattern.higher_order]
    exact Nat.le_max_left ..
  · exact Nat.le_refl _

theorem foldl_lampStep_order (line : Nat) : ∀ (zs : List Zone) (p : Pattern),
    p.order ≤ (zs.foldl (lampStep line) p).order
  | [], _ => Nat.le_refl _
  | z :: zs, p => (lampStep_order line p z).trans (foldl_lampStep_order line zs _)

/-- No zone that names a line has a higher pattern than the line shows. -/
theorem pattern_le_foldl (line : Nat) {z : Zone} (hline : z.cfg.indicatorLine = some line) :
    ∀ (zs : List Zone) (p : Pattern), z ∈ zs → z.pattern.order ≤ (zs.foldl (lampStep line) p).order
  | y :: zs, p, hz => by
    rcases List.mem_cons.mp hz with rfl | hz
    · refine Nat.le_trans ?_ (foldl_lampStep_order line zs _)
      simp only [lampStep, hline, if_true, Pattern.higher_order]
      exact Nat.le_max_right ..
    · exact pattern_le_foldl line hline zs _ hz

/-- The pattern a line shows is the first one or that of a zone that names the line. -/
theorem foldl_lampStep_mem (line : Nat) : ∀ (zs : List Zone) (p : Pattern),
    zs.foldl (lampStep line) p = p ∨
      ∃ z ∈ zs, z.cfg.indicatorLine = some line ∧ z.pattern = zs.foldl (lampStep line) p
  | [], _ => Or.inl rfl
  | y :: zs, p => by
    rw [List.foldl_cons]
    rcases foldl_lampStep_mem line zs (lampStep line p y) with h | ⟨z, hz, hl, hp⟩
    · rw [h]
      unfold lampStep
      split
      · next hline =>
        exact (p.higher_eq y.pattern).imp id fun hy => ⟨y, by simp, hline, hy.symm⟩
      · exact Or.inl rfl
    · exact Or.inr ⟨z, List.mem_cons_of_mem _ hz, hl, hp⟩

variable {s : State}

theorem State.linePattern_of_running (h : s.running = true) (line : Nat) :
    s.linePattern line = s.zones.foldl (lampStep line) .off := if_pos h

theorem State.linePattern_of_not_running (h : s.running = false) (line : Nat) : s.linePattern line = .off :=
  if_neg (by simp [h])

theorem State.lineLevel_of_not_running (h : s.running = false) (line : Nat) : s.lineLevel line = false := by
  simp [State.lineLevel, State.linePattern_of_not_running h, Pattern.level]

theorem State.lineLevel_eq (s : State) (line : Nat) :
    s.lineLevel line =
      match s.linePattern line with
      | .fast => decide (s.patternPhase % 4 < 2)
      | .pulse => decide (s.patternPhase % 16 < 1)
      | .slow => decide (s.patternPhase % 16 < 8)
      | .steady => true
      | .off => false := rfl

variable {z : Zone}

theorem Zone.pattern_inactive (h : z.cfg.active = false) : z.pattern = .off := by simp [Zone.pattern, h]

theorem Zone.pattern_fast (h : z.cfg.active = true) (hc : 0 < z.counts.expired ∨ 0 < z.counts.spent) :
    z.pattern = .fast := by simp [Zone.pattern, h, hc]

theorem Zone.pattern_below_fast (h : z.cfg.active = true) (he : z.counts.expired = 0) (hs : z.counts.spent = 0) :
    z.pattern = if z.mode = .degraded then .pulse else if 0 < z.counts.warned then .slow else .steady := by
  simp [Zone.pattern, h, he, hs]

end Lamps

/-- Settles O3: an idle step by what stands on the lines, a zone's pattern row by row, and the fold that a line shows. -/
theorem idleStepAndLamps : Obligations.IdleStepAndLamps := by
  refine ⟨fun s hp hl hr => ?_, fun s hp hl hc => ?_, fun s hp hl hr => ?_, fun s l c rest hp hl => ⟨?_, ?_, ?_⟩,
    fun z => ⟨Zone.pattern_inactive, Zone.pattern_fast, fun ha he hs => ?_⟩, by decide,
    fun s line hr => State.lineLevel_of_not_running hr line, fun s line _ => s.lineLevel_eq line,
    fun s line z hr hz hline => ?_, fun s line hr hon => ?_⟩
  · rw [step_of_no_command hp, State.idle_of_no_character hl, State.tick_of_running (by simpa using hr),
      State.takeDue_patternPhase]
  · obtain ⟨hr, hq⟩ := State.calm_iff.mp hc
    rw [step_of_no_command hp, State.idle_of_no_character hl, State.takeDue_of_quiet hq, State.tick_of_running hr]
  · rw [step_of_no_command hp, State.idle_of_no_character hl, State.takeDue_of_not_running hr,
      State.tick_of_not_running hr]
  · intro hready
    obtain ⟨hrec, hq⟩ := State.ready_iff.mp hready
    rw [step_character hp hl fun _ => hq, State.takeCharacter_of_receiving (s := { s with line := rest }) hrec]
  · intro hr
    rw [step_character hp hl fun h => absurd h (by simp [hr]),
      State.takeCharacter_of_not_receiving (s := { s with line := rest }) (State.not_receiving_of_not_running hr)]
  · intro hc hw
    rw [step_character hp hl fun _ => (State.calm_iff.mp hc).2,
      State.takeCharacter_of_not_receiving (s := { s with line := rest }) (State.not_receiving_of_windDown hw)]
  · rw [Zone.pattern_below_fast ha he hs]
    exact ⟨fun hm => by simp [hm], fun hm hw => by simp [hm, hw], fun hm hw => by simp [hm, hw]⟩
  · rw [State.linePattern_of_running hr]
    exact pattern_le_foldl line hline s.zones .off hz
  · rw [State.linePattern_of_running hr] at hon ⊢
    exact (foldl_lampStep_mem line s.zones .off).resolve_left hon

end Sys2Proof.Machine

/-! PROOFS. Power and time: what the starts and the losses of power leave, the minute and second events, the ends of
countdowns and the drains. -/

namespace Sys2Proof.Machine

-- One proof after another: elaborated side by side, so many short ones outgrow the memory a compile may take.
set_option Elab.async false

open Sys2Proof

/-! Cold starts and the power-fail warning -/

/-- The state of a cold start, the raising of BACKUP_LOST carried out. -/
theorem State.coldStart_eq (s : State) (pins : StartPins) :
    s.coldStart pins =
      { State.reset with
        pending := s.pending
        line := s.line
        hostLink := LinkState.start pins.hostStraps
        floorLink := LinkState.start pins.floorStraps
        doorLevel := pins.doors } := rfl

theorem State.startsCold_iff (s : State) :
    s.startsCold = true ↔ s.power = .off ∨ (s.power = .retain ∧ s.checkWord = false) := by
  simp [State.startsCold]

theorem State.reset_zone (n : Nat) : State.reset.zone n = Zone.cold := by
  simp only [State.zone, State.reset, State.unpowered, List.getD_eq_getElem?_getD, List.getElem?_replicate]
  split <;> rfl

theorem State.reset_cls (n : Nat) : State.reset.cls n = ClassRec.cold := by
  simp only [State.cls, State.reset, State.unpowered, List.getD_eq_getElem?_getD, List.getElem?_replicate]
  split <;> rfl

/-- Settles O5: the state a cold start leaves is written out by `coldStart_eq`, and its tables hold cold records only. -/
theorem coldStartValues : Obligations.ColdStartValues := by
  intro s pins h
  have hzone (n : Nat) : (s.coldStart pins).zone n = Zone.cold := State.reset_zone n
  have hcls (n : Nat) : (s.coldStart pins).cls n = ClassRec.cold := State.reset_cls n
  refine ⟨s.coldStart pins, execColdStart_of_startsCold (s.startsCold_iff.2 h) pins, ?_⟩
  simp [hzone, hcls]
  simp [State.coldStart_eq, State.reset, State.unpowered, State.running, State.attn]
  decide

theorem State.powerFailWarning_eq {s : State} (hp : s.power = .run) (hw : s.windDown = false)
    (hq : s.running = true → s.quiet = true) : exec .powerFailWarning s = .next s.beginWindDown := by
  show execPowerFailWarning s = _
  simp [execPowerFailWarning, State.takeDue_of_calm hq, hp, hw]

/-- Nobody is granted the store while the part does not receive (R142, R193, R196). -/
theorem State.arbitrate_of_not_receiving {s : State} (h : s.receiving = false) : s.arbitrate = .none := by
  simp [State.arbitrate, h]

/-- Settles O6: what a hand keeps is read off `keepHand`, and no grant follows because the part no longer receives. -/
theorem powerFailWarning : Obligations.PowerFailWarning := by
  refine ⟨fun s hp hw hq => State.powerFailWarning_eq hp hw hq, fun _ _ => rfl, fun _ _ => rfl, fun s hw => ?_⟩
  have hr := State.not_receiving_of_windDown hw
  exact ⟨State.arbitrate_of_not_receiving hr, fun g hg => s.awards_none g hr hg⟩

/-! Losses of power -/

/-- Settles O7: an entry to RETAIN writes only the volatile domain, and OFF starts cold. -/
theorem powerIsLost : Obligations.PowerIsLost := by
  refine ⟨fun s hp hw hh hf hq => ?_, fun s hp hw hq => ?_, fun s hp => ?_⟩
  case refine_1 =>
    have hretain (vback : Bool) :
        exec (.retainEntry vback) s = .next (if vback then s.toRetain else s.toOff) := by
      show execRetainEntry vback s = _
      simp [execRetainEntry, State.takeDue_of_calm hq, State.woundDown, hp, hw, hh, hf]
    exact ⟨⟨_, hretain true, rfl, rfl, rfl, rfl, rfl, rfl, rfl, rfl, rfl, rfl, rfl⟩, _, hretain false, rfl⟩
  case refine_2 =>
    have hloss (vback : Bool) :
        exec (.mainPowerLoss vback) s =
          .next (if vback then { s.toRetain with checkWord := false } else s.toOff) := by
      show execMainPowerLoss vback s = _
      simp [execMainPowerLoss, State.takeDue_of_calm hq, hp, hw]
    exact ⟨⟨_, hloss true, rfl, rfl, rfl⟩, _, hloss false, rfl, rfl⟩
  case refine_3 =>
    have hoff : exec .backupLoss s = .next s.toOff := by
      show execBackupLoss s = _
      simp [execBackupLoss, hp]
    exact ⟨_, hoff, rfl, rfl⟩

/-! RESETn -/

/-- Settles O9: the claims and links are cut by `assertReset`; a part that does not run shows and grants nothing. -/
theorem resetIsAsserted : Obligations.ResetIsAsserted := by
  refine ⟨fun s hr => ?_, fun s _ hw hq => ?_, fun s hreset => ?_⟩
  case refine_1 =>
    obtain ⟨hreceiving, hquiet⟩ := s.ready_iff.1 hr
    show execResetAsserted s = _
    simp only [execResetAsserted, State.takeDue_of_quiet hquiet, hreceiving, if_true]
    rfl
  case refine_2 =>
    show execResetAsserted s = _
    simp [execResetAsserted, State.takeDue_of_quiet hq, State.not_receiving_of_windDown hw]
  case refine_3 =>
    have hrun : s.running = false := by simp [State.running, hreset]
    have hr := State.not_receiving_of_not_running hrun
    exact ⟨State.arbitrate_of_not_receiving hr, fun g hg => s.awards_none g hr hg, by simp [State.attn, hrun],
      fun line => State.lineLevel_of_not_running hrun line⟩

end Sys2Proof.Machine

/-! PROOFS. What a start charges and leaves, and the minute and second events. -/

namespace Sys2Proof.Machine

-- One proof after another: elaborated side by side, so many short ones outgrow the memory a compile may take.
set_option Elab.async false

open Sys2Proof

/-! The acts of R195 -/

theorem State.raiseOutage_eta (s : State) (m : Nat) :
    s.raiseOutage m = { s with alerts := (s.raiseOutage m).alerts, overflow := (s.raiseOutage m).overflow } := by
  unfold State.raiseOutage
  split
  · exact s.raise_eta _ _ _
  · rfl

/-- What a warm start writes: everything but the alerts of OUTAGE. -/
theorem State.warmStart_eq (s : State) (kind : StartKind) (pins : StartPins) :
    s.warmStart kind pins =
      { s.startVolatile pins with
        zones := s.zones.map ((s.startVolatile pins).restartZone s.missed)
        missed := 0
        lastStart := kind
        alerts := (s.warmStart kind pins).alerts
        overflow := (s.warmStart kind pins).overflow } :=
  State.raiseOutage_eta ..

theorem State.warmStart_alerts (s : State) (kind : StartKind) (pins : StartPins) :
    (s.warmStart kind pins).alerts =
      if s.missed = 0 then s.alerts else (s.raise .outage .powerController (some (.minutes s.missed))).alerts := by
  unfold State.warmStart State.raiseOutage
  by_cases hm : s.missed = 0
  · rw [if_neg (by omega), if_pos hm]
    rfl
  · rw [if_pos (by omega), if_neg hm]
    exact State.alerts_raise_congr _ _ _ rfl rfl

/-- Zone by zone: a number beyond the table names a cold record, which a start finds and leaves inactive. -/
theorem State.warmStart_zone (s : State) (kind : StartKind) (pins : StartPins) (n : Nat) :
    (s.warmStart kind pins).zone n = (s.startVolatile pins).restartZone s.missed (s.zone n) := by
  have hzone : (s.warmStart kind pins).zone n =
      ({ s with zones := s.zones.map ((s.startVolatile pins).restartZone s.missed) } : State).zone n := by
    rw [State.warmStart_eq]
    rfl
  rw [hzone, State.zone_mapZones]
  split
  · rfl
  · next hn =>
    rw [s.zone_beyond n (by omega)]
    rfl

theorem State.restartZone_active {s : State} {m : Nat} {z : Zone} (h : z.cfg.active = true) :
    Zone.restarted s m z (s.restartZone m z) := by
  have hrecompute (z' : Zone) (ha : z'.cfg.active = true) (hst : z'.stale = true) :
      s.recompute z' = { z' with mode := .degraded, eRate := s.settings.staleRate, pRate := 0 } :=
    s.recompute_eq (by simp [zoneMode, ha, hst]) (by simp [zoneRates, ha, hst])
  have hz : s.restartZone m z =
      { s.sampleDoor { z.chargeOutage m with stale := true, countdown := 0 } with
        mode := .degraded, eRate := s.settings.staleRate, pRate := 0 } := by
    rw [State.restartZone, if_pos h]
    exact hrecompute _ h rfl
  rw [hz]
  exact ⟨rfl, rfl, rfl, rfl, rfl, rfl, rfl, rfl, rfl, rfl, rfl, rfl, rfl, rfl, rfl, rfl, rfl, rfl, rfl⟩

theorem State.warmStart_restarted (s : State) (kind : StartKind) (pins : StartPins) :
    Restarted s (s.warmStart kind pins) kind pins where
  runs := by rw [State.warmStart_eq]; exact ⟨rfl, rfl⟩
  kept := by rw [State.warmStart_eq]; rfl
  active n h := by
    rw [State.warmStart_zone, State.warmStart_eq]
    exact State.restartZone_active (s := s.startVolatile pins) h
  inactive n h := by rw [State.warmStart_zone, State.restartZone, if_neg (by simp [h])]
  links := by rw [State.warmStart_eq]; exact ⟨rfl, rfl⟩
  doors := by rw [State.warmStart_eq]; rfl
  volatile := by rw [State.warmStart_eq]; exact ⟨rfl, rfl, rfl, rfl, rfl, rfl, rfl, rfl, rfl⟩
  outage := s.warmStart_alerts kind pins
  recorded := by rw [State.warmStart_eq]; exact ⟨rfl, rfl, rfl⟩

/-- Settles O8: a warm start and the release of RESETn are the same acts under two kinds. -/
theorem outageIsCharged : Obligations.OutageIsCharged := by
  refine ⟨fun s pins hp hc => ?_, fun s pins hp hr hw => ?_⟩
  · exact ⟨_, execWarmStart_of_retain hp hc pins, s.warmStart_restarted .warm pins⟩
  · have hexec : exec (.resetReleased pins) s = .next (s.warmStart .reset pins) := by
      show execResetReleased pins s = _
      simp [execResetReleased, hp, hr, hw]
    exact ⟨_, hexec, s.warmStart_restarted .reset pins⟩

/-! Minutes and seconds -/

/-- Settles O11: each zone's minute is `Zone.minute_eq`; without the blocks running, one minute is missed. -/
theorem minuteEvents : Obligations.MinuteEvents := by
  refine ⟨fun s hc => ?_, fun s h => ?_⟩
  case refine_1 =>
    obtain ⟨hr, hq⟩ := State.calm_iff.1 hc
    have hp : s.power ≠ .off := by simp_all [State.running]
    have hover : s.arbitrate.overMinute = if s.arbitrate = .drain then .none else s.arbitrate := by
      cases s.arbitrate <;> rfl
    show execMinuteEvent s = _
    rw [execMinuteEvent, State.takeDue_of_quiet hq, State.minute, if_neg hp, if_pos hr, hover]
    simp only [← Zone.minute_eq]
    rfl
  case refine_2 =>
    have hr : s.running = false := by rcases h with h | ⟨h, ha⟩ <;> simp [State.running, *]
    have hp : s.power ≠ .off := by rcases h with h | ⟨h, ha⟩ <;> simp [*]
    show execMinuteEvent s = _
    rw [execMinuteEvent, State.takeDue_of_not_running hr, State.minute, if_neg hp, if_neg (by simp [hr])]
    rfl

/-- The claim that `claimOf` finds is a claim on the item. -/
theorem State.claimOf_item {s : State} {it : Item} {c : Claim} (h : s.claimOf it = some c) : c.item = it := by
  simpa using List.find?_some h

/-- Settles O13: a claim at 0 is the one `lapseItem` frees. -/
theorem claimSecondsAndLapse : Obligations.ClaimSecondsAndLapse := by
  refine ⟨fun s hc => ?_, fun s it c hr hclaim hsec => ?_⟩
  case refine_1 =>
    obtain ⟨hr, hq⟩ := State.calm_iff.1 hc
    show execClaimSecond s = _
    rw [execClaimSecond, State.takeDue_of_quiet hq, if_pos hr]
    rfl
  case refine_2 =>
    have hitem : c.item = it := State.claimOf_item hclaim
    show execClaimLapsed it s = _
    simp only [execClaimLapsed, hr, if_true, State.lapseItem, hclaim, Claim.lapseDue, hsec, decide_true]
    subst hitem
    rfl

/-! Drains -/

/-- The due zone is the lowest-numbered one (R41). -/
theorem State.dueZone_eq {s : State} {n : Nat} (hn : n < 64) (hlow : ∀ m < n, (s.zone m).due = false)
    (hdue : (s.zone n).due = true) : s.dueZone = some n := by
  refine List.find?_range_eq_some.2 ⟨hdue, List.mem_range.2 hn, fun m hm => ?_⟩
  simp [hlow m hm]

/-- With a due head, a part that receives grants the drain and settles the carrier under that head. -/
theorem State.exec_drain {s : State} {n slot : Nat} (hr : s.ready = true) (hdue : s.dueZone = some n)
    (hslot : s.drainSlot = some slot) :
    exec .drain s = .next (({ s with heldOver := .none } : State).settleStamped slot).freeStore := by
  obtain ⟨hreceiving, hquiet⟩ := State.ready_iff.1 hr
  have hgrant : s.arbitrate = .drain := by simp [State.arbitrate, hreceiving, hdue]
  show execDrain s = _
  simp only [execDrain, State.takeDue_of_quiet hquiet, hgrant, if_true, State.drain, hslot]
  rfl

/-- Settles O14: the due head of the lowest due zone is the slot of the drain. -/
theorem drainTakesDueHead : Obligations.DrainTakesDueHead := by
  refine ⟨fun s n hc => ?_, fun s n h rest hr hn hlow hl hk => ?_, fun s n h rest hr hn hlow he hl hk => ?_⟩
  case refine_1 =>
    show execKeyEvent n s = _
    rw [execKeyEvent, State.takeDue_of_quiet (State.calm_iff.1 hc).2]
  case refine_2 =>
    have he : (s.zone n).eDue = true := by simp [Zone.eDue, headDue, hl, hk]
    have hdue := State.dueZone_eq hn hlow (by simp [Zone.due, he])
    exact State.exec_drain hr hdue (by simp [State.drainSlot, hdue, he, hl])
  case refine_3 =>
    have hp : (s.zone n).pDue = true := by simp [Zone.pDue, headDue, hl, hk]
    have hdue := State.dueZone_eq hn hlow (by simp [Zone.due, hp])
    exact State.exec_drain hr hdue (by simp [State.drainSlot, hdue, he, hl])


/-! Countdowns that reach their ends -/

/-- An active zone that a change leaves degraded raises ZONE_DEGRADED exactly when it was NORMAL (R111). -/
theorem State.putZone_degraded {s : State} {n : Nat} {z : Zone} (cause : Cause) (hold : (s.zone n).cfg.active = true)
    (ha : z.cfg.active = true) (hm : zoneMode z = .degraded) :
    s.putZone cause n z =
      if (s.zone n).mode = .normal then
        (s.setZone n (s.recompute z)).raise .zoneDegraded (.zone n) (some (.cause cause))
      else s.setZone n (s.recompute z) := by
  have hnew : (s.recompute z).mode = .degraded := hm
  have hactive : (s.recompute z).cfg.active = true := ha
  unfold State.putZone
  dsimp only
  rw [if_pos (by simp [hold, hactive]), hnew]
  cases (s.zone n).mode <;> rfl

/-- Settles O12: both ends are `putZone` of a zone that has just become degraded. -/
theorem countersReachTheirEnds : Obligations.CountersReachTheirEnds := by
  refine ⟨fun s n z t hr hz ha hst hc ht => ?_, fun s n z t hr hz ha ho hd hg ht => ?_⟩
  case refine_1 =>
    subst hz
    have hnew : s.recompute { s.zone n with stale := true } =
        { s.zone n with stale := true, mode := .degraded, eRate := s.settings.staleRate, pRate := 0 } :=
      s.recompute_eq (by simp [zoneMode, ha]) (by simp [zoneRates, ha])
    have hdue : (s.zone n).expiryDue = true := by simp [Zone.expiryDue, ha, hst, hc]
    have hput := State.putZone_degraded (s := s) (z := { s.zone n with stale := true }) .stale ha ha
      (by simp [zoneMode, ha])
    show execStalenessExpiry n s = _
    rw [execStalenessExpiry, if_pos hr, State.takeExpiry, if_pos hdue, hput, hnew, ht]
  case refine_2 =>
    subst hz
    have hnew : s.recompute { s.zone n with doorDegraded := true } =
        { s.zone n with
          doorDegraded := true
          mode := .degraded
          eRate := (zoneRates s.grid s.settings.staleRate { s.zone n with doorDegraded := true }).1
          pRate := (zoneRates s.grid s.settings.staleRate { s.zone n with doorDegraded := true }).2 } :=
      s.recompute_eq (by simp [zoneMode, ha]) rfl
    have hdue : (s.zone n).graceDue = true := by simp [Zone.graceDue, ha, ho, hd, hg]
    have hput := State.putZone_degraded (s := s) (z := { s.zone n with doorDegraded := true }) .door ha ha
      (by simp [zoneMode, ha])
    show execDoorGraceReached n s = _
    rw [execDoorGraceReached, if_pos hr, State.takeGrace, if_pos hdue, hput, hnew, ht]

end Sys2Proof.Machine

/-! PROOFS. Chapter 1, carrier accounts: charges, keys and life status of a settle, what it touches, and the residence
change. -/

namespace Sys2Proof.Machine

-- One proof after another: elaborated side by side, so many short ones outgrow the memory a compile may take.
set_option Elab.async false

open Sys2Proof

/-! One account -/

/-- Settles O15: the charge is written by residence mode. -/
theorem settleCharges : Obligations.SettleCharges := by
  refine ⟨fun e p c x hx => ?_, fun _ => rfl, fun s slot c h => by simp [State.carrier_settle, h]⟩
  have hbase : newExposure c (e - c.aE) (p - c.aP) = x := by
    rw [hx]
    cases hm : c.mode <;> simp only [newExposure, hm] <;> rfl
  have hprogress : newProgress c (p - c.aP) =
      if c.mode = .bake then min (c.progress + (p - c.aP)) 4294967295 else c.progress := by
    cases hm : c.mode <;> simp only [newProgress, hm] <;> rfl
  simp only [charge, hbase, hprogress]

theorem eligibleNow_iff (v : ClassValues) (t : Carrier) :
    eligibleNow v t = true ↔ 0 < v.ceiling ∧ t.base ≤ v.ceiling ∧ (t.life = .fresh ∨ t.life = .warned) := by
  simp [eligibleNow, and_assoc]

theorem eKeyOf_eq (v : ClassValues) (t : Carrier) :
    eKeyOf v t =
      if t.mode ≠ .still ∧ v.limit ≠ 0 ∧ t.life = .fresh then some (t.aE + (v.warnLevel - t.base))
      else if t.mode ≠ .still ∧ v.limit ≠ 0 ∧ t.life = .warned then some (t.aE + (v.limit - t.base))
      else none := by
  unfold eKeyOf
  by_cases h : t.mode ≠ .still ∧ v.limit ≠ 0
  · rw [if_pos (by rwa [limited_iff])]
    cases ht : t.life <;> simp [h]
  · rw [if_neg (by rwa [limited_iff]), if_neg (fun h' => h ⟨h'.1, h'.2.1⟩), if_neg (fun h' => h ⟨h'.1, h'.2.1⟩)]

theorem pKeyOf_eq (v : ClassValues) (t : Carrier) :
    pKeyOf v t =
      if t.mode = .rest ∧ t.eligible = true ∧ 0 < t.base then some (t.aP + t.base)
      else if t.mode = .bake ∧ t.life ≠ .spent ∧ t.bakeCount < v.bakeBudget then
        some (t.aP + (v.bakeRequirement - t.progress))
      else none := by
  unfold pKeyOf
  cases ht : t.mode <;> simp

/-- FRESH is left by threshold evaluation only below the warning level (R13). -/
theorem lt_warnLevel_of_evaluate_fresh {v : ClassValues} {n x : Nat} {life : Life} (hl : v.limit ≠ 0)
    (h : evaluate v n x life = .fresh) : life = .fresh ∧ x < v.warnLevel := by
  by_cases hx : v.limit ≤ x
  · cases life with
    | fresh => rw [evaluate_beyond_limit hl hx (.inl rfl)] at h; split at h <;> simp at h
    | warned => rw [evaluate_beyond_limit hl hx (.inr rfl)] at h; split at h <;> simp at h
    | expired => rw [evaluate_expired hl] at h; split at h <;> simp at h
    | spent => simp [evaluate_spent] at h
  · cases life with
    | fresh =>
      rw [evaluate_fresh_below_limit hl (by omega)] at h
      split at h
      · simp at h
      · exact ⟨rfl, by omega⟩
    | warned => simp [evaluate_warned_below_limit (Nat.lt_of_not_le hx)] at h
    | expired => rw [evaluate_expired hl] at h; split at h <;> simp at h
    | spent => simp [evaluate_spent] at h

/-- WARNED is left by threshold evaluation only below the limit, and never of an EXPIRED carrier (R13). -/
theorem lt_limit_of_evaluate_warned {v : ClassValues} {n x : Nat} {life : Life} (hl : v.limit ≠ 0)
    (h : evaluate v n x life = .warned) : (life = .fresh ∨ life = .warned) ∧ x < v.limit := by
  have hlife : life = .fresh ∨ life = .warned := by
    cases life with
    | fresh => exact .inl rfl
    | warned => exact .inr rfl
    | expired => rw [evaluate_expired hl] at h; split at h <;> simp at h
    | spent => simp [evaluate_spent] at h
  refine ⟨hlife, Nat.lt_of_not_le fun hx => ?_⟩
  rw [evaluate_beyond_limit hl hx hlife] at h
  split at h <;> simp at h

/-- A bake not completed by a settle has progress below the requirement, while its mode, status and count let it complete
(R11). -/
theorem progress_lt_requirement {v : ClassValues} {e p : Nat} {clock : Option Word} {minute : Word} {c t : Carrier}
    (ht : t = (settleRecord v e p clock minute c).1) (hv : 0 < v.bakeRequirement) (hm : t.mode = .bake)
    (hl : t.life ≠ .spent) (hb : t.bakeCount < v.bakeBudget) : t.progress < v.bakeRequirement := by
  subst ht
  cases h : bakeReady v (charge e p c) with
  | true =>
    obtain ⟨-, hprogress, -⟩ := settleRecord_baked (clock := clock) (minute := minute) h
    rwa [hprogress]
  | false =>
    obtain ⟨-, hprogress, -, -, hcount, -, hlife⟩ := settleRecord_unbaked (clock := clock) (minute := minute) h
    obtain ⟨-, -, -, -, hmode, -⟩ := settleRecord_kept v e p clock minute c
    have hspent : c.life ≠ .spent := fun hc => hl (by rw [hlife, hc, evaluate_spent])
    have hready : ¬ bakeReady v (charge e p c) = true := by simp [h]
    rw [bakeReady_charge] at hready
    rw [hprogress]
    exact Nat.lt_of_not_le fun hle => hready ⟨hmode ▸ hm, hspent, hcount ▸ hb, hle⟩

/-- Settles O18: the keys are those of the record a settle leaves, each beyond its integral because the status evaluated,
or the bake not completed, leaves a distance. -/
theorem settleKeys : Obligations.SettleKeys := by
  rintro v e p clock minute c t ht
  obtain ⟨-, -, -, -, -, haE, haP, -⟩ := settleRecord_kept v e p clock minute c
  have helig : t.eligible = eligibleNow v t := by subst ht; rfl
  have hlife := settleRecord_life v e p clock minute c
  have hprogress := progress_lt_requirement ht
  have heKey : t.eKey = eKeyOf v t := by subst ht; rfl
  have hpKey : t.pKey = pKeyOf v t := by subst ht; rfl
  rw [← ht] at haE haP hlife
  rw [eKeyOf_eq, haE] at heKey
  rw [pKeyOf_eq, haP] at hpKey
  refine ⟨helig ▸ eligibleNow_iff v t, heKey, hpKey, fun k hk => ?_, fun hv k hk => ?_⟩
  case refine_1 =>
    rw [heKey] at hk
    split at hk
    · next h =>
      obtain ⟨-, hl, hf⟩ := h
      obtain ⟨-, hlt⟩ := lt_warnLevel_of_evaluate_fresh hl (hlife ▸ hf)
      simp only [Option.some.injEq] at hk
      omega
    · split at hk
      · next h =>
        obtain ⟨-, hl, hw⟩ := h
        obtain ⟨-, hlt⟩ := lt_limit_of_evaluate_warned hl (hlife ▸ hw)
        simp only [Option.some.injEq] at hk
        omega
      · simp at hk
  case refine_2 =>
    rw [hpKey] at hk
    split at hk
    · next h =>
      obtain ⟨-, -, hbase⟩ := h
      simp only [Option.some.injEq] at hk
      omega
    · split at hk
      · next h =>
        obtain ⟨hm, hl, hb⟩ := h
        have := hprogress hv hm hl hb
        simp only [Option.some.injEq] at hk
        omega
      · simp at hk

/-- A status that evaluation lowers back, below EXPIRED or from WARNED to FRESH, was FRESH before it: a bake completed. -/
theorem baked_of_life_falls {v : ClassValues} {e p : Nat} {clock : Option Word} {minute : Word} {c t : Carrier}
    (ht : t = (settleRecord v e p clock minute c).1)
    (h : (c.life = .expired ∧ (t.life = .fresh ∨ t.life = .warned)) ∨ (c.life = .warned ∧ t.life = .fresh)) :
    c.mode = .bake ∧ t.bakeCount = c.bakeCount + 1 := by
  subst ht
  cases hb : bakeReady v (charge e p c) with
  | true =>
    obtain ⟨hm, -⟩ := (bakeReady_charge v e p c).1 hb
    obtain ⟨-, -, -, -, hcount, -⟩ := settleRecord_baked (clock := clock) (minute := minute) hb
    exact ⟨hm, hcount⟩
  | false =>
    obtain ⟨-, -, -, -, -, -, hlife⟩ := settleRecord_unbaked (clock := clock) (minute := minute) hb
    rw [hlife] at h
    by_cases hl : v.limit = 0
    · rw [evaluate_unlimited hl] at h
      rcases h with ⟨hc, hf | hw⟩ | ⟨hc, hf⟩ <;> simp_all
    · rcases h with ⟨hc, hf | hw⟩ | ⟨hc, hf⟩
      · obtain ⟨hfresh, -⟩ := lt_warnLevel_of_evaluate_fresh hl hf
        simp [hc] at hfresh
      · obtain ⟨hbelow, -⟩ := lt_limit_of_evaluate_warned hl hw
        simp [hc] at hbelow
      · obtain ⟨hfresh, -⟩ := lt_warnLevel_of_evaluate_fresh hl hf
        simp [hc] at hfresh

theorem settleRecord_spent {v : ClassValues} {e p : Nat} {clock : Option Word} {minute : Word} {c : Carrier}
    (h : c.life = .spent) : (settleRecord v e p clock minute c).1.life = .spent := by
  have hb : bakeReady v (charge e p c) = false := by simp [bakeReady, h]
  obtain ⟨-, -, -, -, -, -, hlife⟩ := settleRecord_unbaked (clock := clock) (minute := minute) hb
  rw [hlife, h, evaluate_spent]

/-- Settles O19: evaluation alone never lowers a status, so what falls back follows a completion. -/
theorem lifeNeverReturns : Obligations.LifeNeverReturns := by
  rintro v e p clock minute c t ht
  exact ⟨fun h => ht ▸ settleRecord_spent h, fun hc h => baked_of_life_falls ht (.inl ⟨hc, h⟩),
    fun hc h => baked_of_life_falls ht (.inr ⟨hc, h⟩)⟩

/-! What a settle touches -/

/-- A key goes in behind every entry of a lower or equal key (R39). -/
theorem insertKey_eq (e : KeyEntry) : ∀ l : List KeyEntry,
    insertKey e l =
      l.takeWhile (fun x => decide (x.key ≤ e.key)) ++ e :: l.dropWhile (fun x => decide (x.key ≤ e.key))
  | [] => rfl
  | h :: rest => by
    unfold insertKey
    by_cases hk : e.key < h.key
    · simp [hk, Nat.not_le.2 hk]
    · simp [hk, Nat.le_of_not_lt hk, insertKey_eq e rest]

theorem Zone.settled_eq (z : Zone) (slot : Nat) (a b : Life) (e p : Option Nat) :
    ((z.withdraw slot).file slot e p).moveLife a b =
      { z with
        eList := insertKeyOpt slot e (z.eList.filter fun x => x.slot ≠ slot)
        pList := insertKeyOpt slot p (z.pList.filter fun x => x.slot ≠ slot)
        counts := if a = b then z.counts else (z.counts.sub a).add b } := by
  unfold Zone.moveLife
  split <;> rfl

/-- Settles O20: the record, the zone and the stamp by `carrier_settle`, `zone_settle` and `carrier_bumpCarrierIf`. -/
theorem settleFrame : Obligations.SettleFrame := by
  refine ⟨insertKey_eq, fun s slot => s.settle_eta slot, fun s slot m h => by simp [State.carrier_settle, h],
    fun s slot n c hc hz => s.zone_settle_other slot n c hc hz, fun s slot n c hc hz hn => ?_,
    fun s slot h => s.settle_free slot h, fun s slot c hc => ?_⟩
  case refine_1 => rw [s.zone_settle slot n c hc, if_pos ⟨hz, hn⟩, Zone.settled_eq]
  case refine_2 =>
    obtain ⟨-, -, -, -, -, -, -, -, hstamp, -⟩ := s.settled_kept c
    rw [State.settleStamped, State.carrier_bumpCarrierIf, if_pos rfl, State.carrier_settle, if_pos rfl, hc,
      s.settle_changed slot c hc]
    simp [hstamp]

end Sys2Proof.Machine

/-! PROOFS. Chapter 1, the residence change (R4): the record between and after its two settles, and both zones. -/

namespace Sys2Proof.Machine

-- One proof after another: elaborated side by side, so many short ones outgrow the memory a compile may take.
set_option Elab.async false

open Sys2Proof

/-! The record of a residence change -/

section Move

variable (r : Residence) (e p : Nat) (clock : Option Word) (minute : Word) (k : Carrier)

/-- What a move keeps of the settled record, and what it takes from the residence. -/
theorem moveRecord_kept :
    let m := moveRecord r e p clock minute k
    m.parent = r.parent ∧ m.packed = r.packed ∧ m.zone = r.zone ∧ m.mode = r.mode ∧ m.aE = e ∧ m.aP = p ∧
      m.base = k.base ∧ m.progress = (if r.mode = .bake then k.progress else 0) ∧ m.bakeCount = k.bakeCount ∧
      m.life = k.life ∧ m.stamp = k.stamp ∧ m.hold = k.hold ∧ m.cls = k.cls ∧ m.inTransit = k.inTransit ∧
      m.enrolStamp = k.enrolStamp := by
  unfold moveRecord
  dsimp only
  split <;> exact ⟨rfl, rfl, rfl, rfl, rfl, rfl, rfl, rfl, rfl, rfl, rfl, rfl, rfl, rfl, rfl⟩

/-- The segments of a move that keeps zone and mode. -/
theorem moveRecord_stays (h : k.zone = r.zone ∧ k.mode = r.mode) :
    let m := moveRecord r e p clock minute k
    m.carried = k.carried ∧ m.closed = k.closed ∧ m.openSeg = k.openSeg := by
  unfold moveRecord
  dsimp only
  rw [if_neg (by simp [h.1, h.2])]
  exact ⟨rfl, rfl, rfl⟩

/-- The segments of a move to another zone or mode: the open one closed, a new one opened (R21, R22). -/
theorem moveRecord_leaves (h : k.zone ≠ r.zone ∨ k.mode ≠ r.mode) :
    let m := moveRecord r e p clock minute k
    (m.carried, m.closed) =
        foldSegments k.carried
          (k.closed ++
            [{ zone := k.openSeg.zone, mode := k.openSeg.mode, stamp := k.openSeg.stamp,
               minutes := minute - k.openSeg.entry, credits := k.openSeg.credits }]) ∧
      m.openSeg = { zone := r.zone, mode := r.mode, stamp := clock, entry := minute, credits := 0 } := by
  unfold moveRecord
  dsimp only
  rw [if_pos h]
  exact ⟨rfl, rfl⟩

end Move

/-- A settle right after the anchors are taken charges nothing: the exposure and the progress stand. -/
theorem charge_anchored {m : Carrier} (hb : m.base ≤ 4294967295) (hp : m.progress ≤ 4294967295) :
    newExposure m (m.aE - m.aE) (m.aP - m.aP) = m.base ∧ newProgress m (m.aP - m.aP) = m.progress := by
  have hbase : min m.base 4294967295 = m.base := by omega
  have hprogress : min m.progress 4294967295 = m.progress := by omega
  constructor
  · cases hm : m.mode <;> simp [newExposure, hm, Config.accountMax, hbase]
  · cases hm : m.mode <;> simp [newProgress, hm, Config.accountMax, hprogress]

/-- What the second settle of a residence change makes of the moved record `m`, its anchors just taken (R4, R8): no charge,
and a bake completed only in BAKE. -/
theorem settle_anchored {v : ClassValues} {clock : Option Word} {minute : Word} {m t : Carrier}
    (ht : t = (settleRecord v m.aE m.aP clock minute m).1) (hb : m.base ≤ 4294967295)
    (hp : m.progress ≤ 4294967295) :
    (t.bakeCount = m.bakeCount ∧ t.base = m.base ∧ t.progress = m.progress ∧ t.carried = m.carried ∧
        t.closed = m.closed ∧ t.openSeg = m.openSeg) ∨
      (m.mode = .bake ∧ t.bakeCount = m.bakeCount + 1 ∧ t.base = 0 ∧ t.progress = 0 ∧ t.carried = 0 ∧ t.closed = [] ∧
        t.openSeg = { m.openSeg with stamp := clock, entry := minute, credits := 0 }) := by
  subst ht
  obtain ⟨hx, hg⟩ := charge_anchored hb hp
  cases hready : bakeReady v (charge m.aE m.aP m) with
  | false =>
    obtain ⟨hbase, hprogress, hcarried, hclosed, hcount, hseg, -⟩ :=
      settleRecord_unbaked (clock := clock) (minute := minute) hready
    rw [hx] at hbase hseg
    rw [hg] at hprogress
    exact .inl ⟨hcount, hbase, hprogress, hcarried, hclosed, by simp [hseg]⟩
  | true =>
    obtain ⟨hbase, hprogress, hcarried, hclosed, hcount, hseg, -⟩ :=
      settleRecord_baked (clock := clock) (minute := minute) hready
    exact .inr ⟨((bakeReady_charge ..).1 hready).1, hcount, hbase, hprogress, hcarried, hclosed, hseg⟩

/-! The zones of a residence change -/

/-- A slot filed where it was withdrawn, and withdrawn once more (R17). -/
theorem withdrawSlot_insertOpt_withdrawn (slot : Nat) (key : Option Nat) (l : List KeyEntry) :
    withdrawSlot slot (insertKeyOpt slot key (l.filter fun x => x.slot ≠ slot)) = l.filter fun x => x.slot ≠ slot :=
  (withdrawSlot_insertOpt slot key _).trans (withdrawSlot_idem slot l)

/-- A zone across two settles of a resident that stays (R17, R46): the first settle leaves no trace but its status. -/
theorem Zone.settle_twice (z : Zone) (slot : Nat) (a b d : Life) (e1 p1 e p : Option Nat) :
    ((((((z.withdraw slot).file slot e1 p1).moveLife a b).withdraw slot).withdraw slot).file slot e p).moveLife b d =
      { z with
        eList := insertKeyOpt slot e (z.eList.filter fun x => x.slot ≠ slot)
        pList := insertKeyOpt slot p (z.pList.filter fun x => x.slot ≠ slot)
        counts := if a = b ∧ b = d then z.counts else (z.counts.sub a).add d } := by
  have hcounts : (if b = d then (if a = b then z.counts else (z.counts.sub a).add b)
      else ((if a = b then z.counts else (z.counts.sub a).add b).sub b).add d) =
      if a = b ∧ b = d then z.counts else (z.counts.sub a).add d := by
    by_cases hab : a = b <;> by_cases hbd : b = d <;> simp [hab, hbd, LifeCounts.sub_add]
  rw [Zone.settled_eq ((((z.withdraw slot).file slot e1 p1).moveLife a b).withdraw slot), Zone.settled_eq z]
  simp only [Zone.withdraw, withdrawSlot_insertOpt_withdrawn, hcounts, List.filter_filter, Bool.and_self]

/-- A zone across the settle of a resident that then leaves (R45, R46). -/
theorem Zone.settle_drop (z : Zone) (slot : Nat) (a b : Life) (e p : Option Nat) :
    ((((z.withdraw slot).file slot e p).moveLife a b).withdraw slot).dropResident b =
      { z with
        residents := z.residents - 1
        counts := z.counts.sub a
        eList := z.eList.filter fun x => x.slot ≠ slot
        pList := z.pList.filter fun x => x.slot ≠ slot } := by
  have hcounts : (if a = b then z.counts else (z.counts.sub a).add b).sub b = z.counts.sub a := by
    by_cases hab : a = b <;> simp [hab, LifeCounts.sub_add]
  rw [Zone.settled_eq]
  simp only [Zone.withdraw, Zone.dropResident, withdrawSlot_insertOpt_withdrawn, hcounts]

/-- A zone across the settle of a carrier that has just become resident (R45, R46). -/
theorem Zone.add_settle (z : Zone) (slot : Nat) (b d : Life) (e p : Option Nat) :
    (((z.addResident b).withdraw slot).file slot e p).moveLife b d =
      { z with
        residents := z.residents + 1
        counts := z.counts.add d
        eList := insertKeyOpt slot e (z.eList.filter fun x => x.slot ≠ slot)
        pList := insertKeyOpt slot p (z.pList.filter fun x => x.slot ≠ slot) } := by
  have hcounts : (if b = d then z.counts.add b else ((z.counts.add b).sub b).add d) = z.counts.add d := by
    by_cases hbd : b = d <;> simp [hbd, LifeCounts.sub_add]
  rw [Zone.settled_eq]
  simp only [Zone.addResident, hcounts]

section Zones

variable {s : State} {slot n : Nat} {c t : Carrier} {r : Residence}

/-- Both settles of a residence change, the zones of `s` in view: the second finds the moved record and leaves `t`. -/
theorem State.changeResidence_settles (hc : s.carrier slot = some c) (hm : c.moves r = true)
    (ht : (s.changeResidence slot r).1.carrier slot = some t) :
    ∃ w : State, w = (s.settle slot).1.relocate slot r (s.settled c).1 ∧ (s.changeResidence slot r).1 = (w.settle slot).1 ∧
      ∃ m, w.carrier slot = some m ∧ m.zone = r.zone ∧ m.life = (s.settled c).1.life ∧ (w.settled m).1 = t ∧
        w.zones.length = s.zones.length := by
  have hcr := congrArg Prod.fst (s.changeResidence_moves slot r c hc hm)
  dsimp only at hcr
  refine ⟨_, rfl, hcr, _, by rw [State.carrier_relocate, if_pos rfl], ?_⟩
  rw [hcr, State.carrier_settle, if_pos rfl, State.carrier_relocate, if_pos rfl, Option.map_some, Option.some.injEq] at ht
  obtain ⟨-, -, hzone, -, -, -, -, -, -, hlife, -⟩ :=
    moveRecord_kept r ((s.settle slot).1.integrals r.zone).1 ((s.settle slot).1.integrals r.zone).2
      (s.settle slot).1.clock (s.settle slot).1.minuteCount (s.settled c).1
  exact ⟨hzone, hlife, ht, by
    have hl := s.zones_length_changeResidence slot r
    rwa [hcr, State.settle_zones_length] at hl⟩

theorem State.zone_relocated (s : State) (slot n : Nat) (c : Carrier) (r : Residence) (hn : n < s.zones.length) :
    ((s.settle slot).1.relocate slot r (s.settled c).1).zone n =
      let z := if c.zone = some n then ((s.settle slot).1.zone n).withdraw slot else (s.settle slot).1.zone n
      if c.zone = r.zone then z
      else
        let z1 := if c.zone = some n then z.dropResident (s.settled c).1.life else z
        if r.zone = some n then z1.addResident (s.settled c).1.life else z1 := by
  obtain ⟨-, -, -, hzone, -⟩ := s.settled_kept c
  rw [State.zone_relocate _ _ _ _ _ (by rwa [State.settle_zones_length]), hzone]

/-- A residence change within one zone. -/
theorem State.zone_changeResidence_same (hc : s.carrier slot = some c) (hm : c.moves r = true)
    (ht : (s.changeResidence slot r).1.carrier slot = some t) (h1 : c.zone = some n) (h2 : r.zone = some n)
    (hn : n < s.zones.length) :
    (s.changeResidence slot r).1.zone n =
      { s.zone n with
        eList := insertKeyOpt slot t.eKey ((s.zone n).eList.filter fun x => x.slot ≠ slot)
        pList := insertKeyOpt slot t.pKey ((s.zone n).pList.filter fun x => x.slot ≠ slot)
        counts :=
          if c.life = (s.settled c).1.life ∧ (s.settled c).1.life = t.life then (s.zone n).counts
          else ((s.zone n).counts.sub c.life).add t.life } := by
  obtain ⟨w, hw, hu, m, hwm, hmz, hml, hset, hlen⟩ := State.changeResidence_settles hc hm ht
  have hzone := s.zone_relocated slot n c r hn
  simp only [← hw, s.zone_settle slot n c hc, h1, h2, hn, and_self, if_true] at hzone
  rw [hu, State.zone_settle _ _ _ _ hwm, if_pos ⟨hmz.trans h2, hlen ▸ hn⟩, hset, hzone, hml, Zone.settle_twice]

/-- The zone a residence change leaves. -/
theorem State.zone_changeResidence_left (hc : s.carrier slot = some c) (hm : c.moves r = true)
    (ht : (s.changeResidence slot r).1.carrier slot = some t) (h1 : c.zone = some n) (h2 : r.zone ≠ some n)
    (hn : n < s.zones.length) :
    (s.changeResidence slot r).1.zone n =
      { s.zone n with
        residents := (s.zone n).residents - 1
        counts := (s.zone n).counts.sub c.life
        eList := (s.zone n).eList.filter fun x => x.slot ≠ slot
        pList := (s.zone n).pList.filter fun x => x.slot ≠ slot } := by
  obtain ⟨w, hw, hu, m, hwm, hmz, hml, hset, hlen⟩ := State.changeResidence_settles hc hm ht
  have hzone := s.zone_relocated slot n c r hn
  simp only [← hw, s.zone_settle slot n c hc, h1, h2, Ne.symm h2, hn, and_self, if_true, if_false] at hzone
  rw [hu, State.zone_settle_other _ _ _ _ hwm (hmz ▸ h2), hzone, Zone.settle_drop]

/-- The zone a residence change enters. -/
theorem State.zone_changeResidence_entered (hc : s.carrier slot = some c) (hm : c.moves r = true)
    (ht : (s.changeResidence slot r).1.carrier slot = some t) (h1 : c.zone ≠ some n) (h2 : r.zone = some n)
    (hn : n < s.zones.length) :
    (s.changeResidence slot r).1.zone n =
      { s.zone n with
        residents := (s.zone n).residents + 1
        counts := (s.zone n).counts.add t.life
        eList := insertKeyOpt slot t.eKey ((s.zone n).eList.filter fun x => x.slot ≠ slot)
        pList := insertKeyOpt slot t.pKey ((s.zone n).pList.filter fun x => x.slot ≠ slot) } := by
  obtain ⟨w, hw, hu, m, hwm, hmz, hml, hset, hlen⟩ := State.changeResidence_settles hc hm ht
  have hzone := s.zone_relocated slot n c r hn
  simp only [← hw, s.zone_settle_other slot n c hc h1, h1, h2, if_true, if_false] at hzone
  rw [hu, State.zone_settle _ _ _ _ hwm, if_pos ⟨hmz.trans h2, hlen ▸ hn⟩, hset, hzone, hml, Zone.add_settle]

end Zones

theorem Carrier.moves_iff (c : Carrier) (r : Residence) :
    c.moves r = true ↔ c.zone ≠ r.zone ∨ c.mode ≠ r.mode ∨ c.parent ≠ r.parent := by
  simp [Carrier.moves, or_assoc]

/-- Settles O21: the record is the second settle of the moved record, which charges nothing since the anchors are new, and
the zones are followed through both settles. -/
theorem residenceChange : Obligations.ResidenceChange := by
  refine ⟨fun carried closed h => ?_, fun carried old rest h => ?_, ?_⟩
  case refine_1 => exact if_neg (by simpa [Config.segmentLimit] using h)
  case refine_2 => simp [foldSegments, Config.segmentLimit, h]
  case refine_3 =>
    rintro s slot c k t r u hc rfl hb hp hmove rfl ht
    have hm := (c.moves_iff r).2 hmove
    obtain ⟨hcls, -, -, hzone, hmode, -, -, hhold, hstamp, htransit, henrol⟩ := s.settled_kept c
    have hrecord := s.carrier_changeResidence slot slot r c hc hm
    rw [ht, if_pos rfl, Option.some.injEq] at hrecord
    generalize hmoved : moveRecord r (s.integrals r.zone).1 (s.integrals r.zone).2 s.clock s.minuteCount
      (s.settled c).1 = m at hrecord
    obtain ⟨mparent, mpacked, mzone, mmode, maE, maP, mbase, mprogress, mcount, -, mstamp, mhold, mcls, mtransit,
      menrol⟩ := hmoved ▸ moveRecord_kept r (s.integrals r.zone).1 (s.integrals r.zone).2 s.clock s.minuteCount
        (s.settled c).1
    obtain ⟨tcls, tpacked, tparent, tzone, tmode, taE, taP, thold, tstamp, ttransit, tenrol⟩ := s.settled_kept m
    rw [← hrecord] at tcls tpacked tparent tzone tmode taE taP thold tstamp ttransit tenrol
    have hsettle := settle_anchored (v := s.classValues m.cls) (clock := s.clock) (minute := s.minuteCount) (m := m)
      (t := t) (by rw [hrecord, State.settled, mzone, maE, maP]) (by omega) (by rw [mprogress]; split <;> omega)
    have hstays (h : c.zone = r.zone ∧ c.mode = r.mode) :=
      hmoved ▸ moveRecord_stays r (s.integrals r.zone).1 (s.integrals r.zone).2 s.clock s.minuteCount (s.settled c).1
        (by rwa [hzone, hmode])
    have hleaves (h : c.zone ≠ r.zone ∨ c.mode ≠ r.mode) :=
      hmoved ▸ moveRecord_leaves r (s.integrals r.zone).1 (s.integrals r.zone).2 s.clock s.minuteCount (s.settled c).1
        (by rwa [hzone, hmode])
    refine ⟨tparent.trans mparent, tpacked.trans mpacked, tzone.trans mzone, tmode.trans mmode, ?_,
      (tstamp.trans mstamp).trans hstamp, (thold.trans mhold).trans hhold, (tcls.trans mcls).trans hcls,
      (ttransit.trans mtransit).trans htransit, (tenrol.trans menrol).trans henrol, fun hr => ?_, fun hr hcount => ?_,
      fun hcount => ?_, fun h hcount => ?_, fun h => ?_, fun h hcount => ?_,
      fun n hn => by rw [s.carrier_changeResidence slot n r c hc hm, if_neg hn],
      fun n h1 h2 => s.zone_changeResidence_other slot n r c hc h1 h2,
      fun n h1 h2 hn => State.zone_changeResidence_same hc hm ht h1 h2 hn,
      fun n h1 h2 hn => State.zone_changeResidence_left hc hm ht h1 h2 hn,
      fun n h1 h2 hn => State.zone_changeResidence_entered hc hm ht h1 h2 hn, s.changeResidence_eta slot r⟩
    case refine_1 =>
      have hint : s.integrals m.zone = s.integrals r.zone := by rw [mzone]
      rw [taE, taP, hint]
    case refine_2 =>
      rcases hsettle with ⟨hcount, hbase, hprogress, -⟩ | ⟨hbake, -⟩
      · exact ⟨hbase.trans mbase, by rw [hprogress, mprogress, if_neg hr], hcount.trans mcount⟩
      · exact absurd (mmode ▸ hbake) hr
    case refine_3 =>
      rcases hsettle with ⟨-, hbase, hprogress, -⟩ | ⟨-, hbaked, -⟩
      · exact ⟨hbase.trans mbase, by rw [hprogress, mprogress, if_pos hr]⟩
      · omega
    case refine_4 =>
      rcases hsettle with ⟨hsame, -⟩ | ⟨-, hbaked, hbase, hprogress, hcarried, hclosed, -⟩
      · exact absurd (hsame.trans mcount) hcount
      · exact ⟨hbaked.trans (by rw [mcount]), hbase, hprogress, hcarried, hclosed⟩
    case refine_5 =>
      obtain ⟨mcarried, mclosed, mseg⟩ := hstays h
      rcases hsettle with ⟨-, -, -, hcarried, hclosed, hseg⟩ | ⟨-, hbaked, -⟩
      · exact ⟨hcarried.trans mcarried, hclosed.trans mclosed, hseg.trans mseg⟩
      · omega
    case refine_6 =>
      obtain ⟨-, mseg⟩ := hleaves h
      rcases hsettle with ⟨-, -, -, -, -, hseg⟩ | ⟨-, -, -, -, -, -, hseg⟩
      · exact hseg.trans mseg
      · rw [hseg, mseg]
    case refine_7 =>
      obtain ⟨msegments, -⟩ := hleaves h
      rcases hsettle with ⟨-, -, -, hcarried, hclosed, -⟩ | ⟨-, hbaked, -⟩
      · rw [hcarried, hclosed, msegments]
      · omega

end Sys2Proof.Machine

/-! PROOFS. Chapters 2, 3 and 6, zones, air and doors: the grid, readings, and changes of the door lines. -/

namespace Sys2Proof.Machine

-- One proof after another: elaborated side by side, so many short ones outgrow the memory a compile may take.
set_option Elab.async false

open Sys2Proof

/-- The queue after a raising is formed from the queue and the clock alone, and so is the overflow flag (R170 to R172). -/
theorem State.overflow_raise_congr {s t : State} (k : AlertKind) (subj : Subject) (x : Option AlertValue)
    (halerts : t.alerts = s.alerts) (hclock : t.clock = s.clock) (hover : t.overflow = s.overflow) :
    (t.raise k subj x).overflow = (s.raise k subj x).overflow := by
  simp only [State.raise, halerts, hclock, apply_ite State.overflow, hover]

/-! What an owner does with a request in hand: the hand is not met by alerts, faults and zones -/

section Hand

variable (s : State) (l : Link) (h : Option Hand)

theorem State.setHand_raise (k : AlertKind) (subj : Subject) (v : Option AlertValue) :
    (s.setHand l h).raise k subj v = (s.raise k subj v).setHand l h := by
  have halerts := State.alerts_raise_congr k subj v (s.setHand_alerts l h) (s.setHand_clock l h)
  have hover := State.overflow_raise_congr k subj v (s.setHand_alerts l h) (s.setHand_clock l h) (s.setHand_overflow l h)
  rw [State.raise_eta (s.setHand l h), halerts, hover, State.raise_eta s]
  cases l <;> rfl

theorem State.setHand_setZone (n : Nat) (z : Zone) : (s.setHand l h).setZone n z = (s.setZone n z).setHand l h := by
  cases l <;> rfl

theorem State.setHand_fillCapture (r : CaptureRec) : (s.setHand l h).fillCapture r = (s.fillCapture r).setHand l h := by
  have hcapture : ({ s.setHand l h with capture := some r } : State) = ({ s with capture := some r } : State).setHand l h := by
    cases l <;> rfl
  rw [State.fillCapture, hcapture, State.setHand_raise]
  rfl

theorem State.setHand_raiseFault (kind : CaptureKind) (source : CaptureSource) (label : Option Label)
    (loc zone : Option Nat) :
    (s.setHand l h).raiseFault kind source label loc zone = (s.raiseFault kind source label loc zone).setHand l h := by
  unfold State.raiseFault
  rw [State.setHand_capture]
  cases s.capture with
  | some r => cases l <;> rfl
  | none =>
    rw [State.setHand_clock]
    exact s.setHand_fillCapture l h _

@[simp] theorem State.setHand_zone (n : Nat) : (s.setHand l h).zone n = s.zone n := by cases l <;> rfl

@[simp] theorem State.setHand_recompute (z : Zone) : (s.setHand l h).recompute z = s.recompute z := by cases l <;> rfl

@[simp] theorem State.setHand_replies (kind tag : Byte) (result : List Byte) :
    (s.setHand l h).replies l kind tag result = s.replies l kind tag result := State.setHand_setHand ..

end Hand

/-! The mode of a zone and its alert (R33, R111) -/

/-- The alert of a change of mode (R111). -/
def State.modeAlert (cause : Cause) (n : Nat) (old new : ZoneMode) (s : State) : State :=
  match old, new with
  | .normal, .degraded => s.raise .zoneDegraded (.zone n) (some (.cause cause))
  | .degraded, .normal => s.raise .zoneRestored (.zone n) none
  | _, _ => s

theorem State.doorAlert_eq (n : Nat) (old new : Zone) (s : State) :
    s.doorAlert n old new = s.modeAlert .door n old.mode new.mode := rfl

theorem State.modeAlert_eta (cause : Cause) (n : Nat) (a b : ZoneMode) (s : State) :
    s.modeAlert cause n a b =
      { s with alerts := (s.modeAlert cause n a b).alerts, overflow := (s.modeAlert cause n a b).overflow } := by
  cases a <;> cases b
  · rfl
  · exact s.raise_eta _ _ _
  · exact s.raise_eta _ _ _
  · rfl

theorem State.modeAlert_same (cause : Cause) (n : Nat) (a : ZoneMode) (s : State) : s.modeAlert cause n a a = s := by
  cases a <;> rfl

@[simp] theorem State.modeAlert_zone (cause : Cause) (n m : Nat) (a b : ZoneMode) (s : State) :
    (s.modeAlert cause n a b).zone m = s.zone m := by
  rw [State.modeAlert_eta]
  rfl

/-- Two states that agree in what a raising reads. -/
def State.sameQueue (s t : State) : Prop := t.alerts = s.alerts ∧ t.overflow = s.overflow ∧ t.clock = s.clock

theorem State.sameQueue.raise {s t : State} (h : s.sameQueue t) (k : AlertKind) (subj : Subject)
    (x : Option AlertValue) : (s.raise k subj x).sameQueue (t.raise k subj x) := by
  obtain ⟨halerts, hover, hclock⟩ := h
  exact ⟨State.alerts_raise_congr k subj x halerts hclock, State.overflow_raise_congr k subj x halerts hclock hover,
    by simp [hclock]⟩

theorem State.sameQueue.modeAlert {s t : State} (h : s.sameQueue t) (cause : Cause) (n : Nat) (a b : ZoneMode) :
    (s.modeAlert cause n a b).sameQueue (t.modeAlert cause n a b) := by
  cases a <;> cases b
  · exact h
  · exact h.raise _ _ _
  · exact h.raise _ _ _
  · exact h

/-- A change of a zone that stays active: the zone written, and the alert of its mode (R33, R111). -/
theorem State.putZone_active {s : State} {n : Nat} {z : Zone} (cause : Cause) (hold : (s.zone n).cfg.active = true)
    (hnew : z.cfg.active = true) :
    s.putZone cause n z =
      (s.setZone n (s.recompute z)).modeAlert cause n (s.zone n).mode (s.recompute z).mode := by
  have hactive : (s.recompute z).cfg.active = true := hnew
  unfold State.putZone
  dsimp only
  rw [if_pos (by simp [hold, hactive])]
  cases (s.zone n).mode <;> cases (s.recompute z).mode <;> rfl

/-- A change of a zone that is inactive before or after it raises nothing. -/
theorem State.putZone_inactive {s : State} {n : Nat} {z : Zone} (cause : Cause)
    (h : (s.zone n).cfg.active = false ∨ z.cfg.active = false) :
    s.putZone cause n z = s.setZone n (s.recompute z) := by
  have hnot : ¬((s.zone n).cfg.active && (s.recompute z).cfg.active) = true := by
    rcases h with h | h <;> simp [State.recompute, h]
  unfold State.putZone
  exact if_neg hnot

/-- An active zone stands in the table. -/
theorem State.lt_of_active {s : State} {n : Nat} (h : (s.zone n).cfg.active = true) : n < s.zones.length := by
  refine Nat.lt_of_not_le fun hn => ?_
  rw [s.zone_beyond n hn] at h
  exact absurd h (by decide)

theorem State.setHand_modeAlert (s : State) (l : Link) (h : Option Hand) (cause : Cause) (n : Nat) (a b : ZoneMode) :
    (s.setHand l h).modeAlert cause n a b = (s.modeAlert cause n a b).setHand l h := by
  cases a <;> cases b
  · rfl
  · exact s.setHand_raise l h _ _ _
  · exact s.setHand_raise l h _ _ _
  · rfl

/-! SETGRID and AMBIENT -/

/-- Settles O23: SETGRID does not wait for the store, and its owner recomputes zone by zone. -/
theorem gridIsSet : Obligations.GridIsSet := by
  refine ⟨fun s tag f ht hq => ?_, fun s tag f ht hq => ?_⟩
  · refine (serve_taken (own := ownSetGrid f) rfl ht).trans ?_
    simp only [ownSetGrid, State.holding, State.setHand_quiesce, hq, ne_eq, not_true, if_false]
    rfl
  · refine (serve_taken (own := ownSetGrid f) rfl ht).trans ?_
    simp only [ownSetGrid, State.holding, State.setHand_quiesce, hq, ne_eq, not_false_iff, if_true]
    rfl

section Ambient

variable {s : State} {l : Link} {tag zone : Byte} {temp hum : Half}

/-- A reading refused by R106, for every condition of it. -/
theorem exec_ambient_refused (ht : s.takes l (.ambient l tag zone temp hum) = true) {kind : CaptureKind} {z : Option Nat}
    (hown : ∀ u : State, (∀ n, u.zone n = s.zone n) →
      ownAmbient zone temp hum u = (u.raiseFault kind .ambient none none z, [stBadField])) :
    exec (.ambient l tag zone temp hum) s = .next ((s.raiseFault kind .ambient none none z).replies l 0x38 tag [0x11]) := by
  refine (serve_taken (own := ownAmbient zone temp hum) rfl ht).trans ?_
  rw [hown (s.holding l _) fun n => State.setHand_zone s l _ n, State.holding, State.setHand_raiseFault,
    State.setHand_replies]
  rfl

theorem Reading.inRange_iff (r : Reading) :
    r.inRange = true ↔ -400 ≤ r.temp ∧ r.temp ≤ 2500 ∧ 0 ≤ r.hum ∧ r.hum ≤ 1000 := by
  simp [Reading.inRange, and_assoc]

/-- Settles O24: a valid reading is `putZone` of the zone that took it, and the three refusals are one lemma. -/
theorem readingIsTaken : Obligations.ReadingIsTaken := by
  refine ⟨?_, fun s l tag zone temp hum ht hz => exec_ambient_refused ht fun u hu => ?_,
    fun s l tag zone temp hum ht hz ha => exec_ambient_refused ht fun u hu => ?_,
    fun s l tag zone temp hum ht hz ha hr => exec_ambient_refused ht fun u hu => ?_⟩
  case refine_1 =>
    rintro s l tag zone temp hum z t u ht hz rfl ha hlow hhigh hhum ht' rfl
    have hrange : ({ temp := temp.toInt, hum := hum.toNat } : Reading).inRange = true :=
      (Reading.inRange_iff _).2 ⟨hlow, hhigh, Int.natCast_nonneg _, Int.ofNat_le.2 hhum⟩
    have hlen := State.lt_of_active ha
    refine (serve_taken (own := ownAmbient zone temp hum) rfl ht).trans ?_
    have hput : (s.holding l (.ambient l tag zone temp hum)).putZone .stale zone.toNat
        ((s.zone zone.toNat).takeReading { temp := temp.toInt, hum := hum.toNat }) =
        ((s.setZone zone.toNat t).modeAlert .stale zone.toNat (s.zone zone.toNat).mode t.mode).holding l
          (.ambient l tag zone temp hum) := by
      have hactive : ((s.holding l (.ambient l tag zone temp hum)).zone zone.toNat).cfg.active = true := by
        rwa [State.holding, State.setHand_zone]
      rw [State.putZone_active .stale hactive (by exact ha)]
      simp only [State.holding, State.setHand_recompute, State.setHand_zone, State.setHand_setZone,
        State.setHand_modeAlert, Zone.takeReading, ← ht']
    have hown : ownAmbient zone temp hum (s.holding l (.ambient l tag zone temp hum)) =
        validReading zone.toNat { temp := temp.toInt, hum := hum.toNat } (s.holding l (.ambient l tag zone temp hum)) := by
      simp [ownAmbient, Config.zoneCount, hz, State.holding, ha, hrange]
    have hgrid : (s.setZone zone.toNat t |>.modeAlert .stale zone.toNat (s.zone zone.toNat).mode t.mode).grid = s.grid := by
      rw [State.modeAlert_eta]
      rfl
    have hstale : t.stale = false := by subst ht'; rfl
    have hholding : (s.holding l (.ambient l tag zone temp hum)).zone zone.toNat = s.zone zone.toNat :=
      State.setHand_zone ..
    rw [hown, validReading, hholding, hput]
    simp only [State.holding, State.setHand_replies, State.setHand_grid, hgrid, State.setHand_zone, State.modeAlert_zone,
      s.zone_setZone _ t hlen, encAmbient, hstale]
    congr 1
    cases (s.zone zone.toNat).mode <;> cases t.mode <;> rfl
  case refine_2 => simp [ownAmbient, Config.zoneCount, hz]
  case refine_3 => simp [ownAmbient, Config.zoneCount, hz, hu, ha]
  case refine_4 =>
    have hrange : ({ temp := temp.toInt, hum := hum.toNat } : Reading).inRange = false := by
      rw [Bool.eq_false_iff, ne_eq, Reading.inRange_iff]
      rintro ⟨h1, h2, -, h3⟩
      have hhum : hum.toNat ≤ 1000 := Int.ofNat_le.1 h3
      dsimp only at h1 h2
      omega
    simp [ownAmbient, Config.zoneCount, hz, hu, ha, hrange]

end Ambient

end Sys2Proof.Machine

/-! PROOFS. Chapter 6, the doors: the zones that follow a line take its change, one line or several. -/

namespace Sys2Proof.Machine

-- One proof after another: elaborated side by side, so many short ones outgrow the memory a compile may take.
set_option Elab.async false

open Sys2Proof

/-! One zone takes a change of its line -/

/-- A zone as an opening or a closing of its line leaves it (R114, R116). -/
def State.doored (s : State) (opened : Bool) (z : Zone) : Zone :=
  if opened then
    let u := { z with doorOpen := true, openMinutes := 0, doorEvents := min (z.doorEvents + 1) 255 }
    if z.cfg.doorGrace = 0 then s.recompute { u with doorDegraded := true } else u
  else
    let u := { z with doorOpen := false, openMinutes := 0 }
    if z.doorDegraded then s.recompute { u with doorDegraded := false } else u

/-- A zone as its line's state, now that it changed, leaves it. -/
def State.doorFollowed (s : State) (z : Zone) : Zone := s.doored (s.doorOf z.cfg.doorLine) z

theorem State.doored_cfg (s : State) (b : Bool) (z : Zone) : (s.doored b z).cfg = z.cfg := by
  unfold State.doored
  split <;> dsimp only <;> split <;> rfl

theorem State.setZone_putZone_door {s : State} {n : Nat} {u z : Zone} (ha : (s.zone n).cfg.active = true)
    (hu : u.cfg.active = true) (hz : s.recompute u = z) :
    s.putZone .door n u = (s.setZone n z).doorAlert n (s.zone n) z := by
  rw [State.putZone_active .door ha hu, hz, State.doorAlert_eq]

/-- The events of a door write its zone and raise the alert of its mode (R111, R114, R116). -/
theorem State.door_eq {s : State} {n : Nat} (b : Bool) (ha : (s.zone n).cfg.active = true) :
    (if b then s.openDoor n else s.closeDoor n) =
      (s.setZone n (s.doored b (s.zone n))).doorAlert n (s.zone n) (s.doored b (s.zone n)) := by
  cases b with
  | true =>
    rw [if_pos rfl, State.openDoor]
    by_cases hg : (s.zone n).cfg.doorGrace = 0
    · refine (if_pos hg).trans (State.setZone_putZone_door ha (by exact ha) ?_)
      rw [State.doored, if_pos rfl, if_pos hg]
    · refine (if_neg hg).trans ?_
      rw [State.doored, if_pos rfl, if_neg hg, State.doorAlert_eq, State.modeAlert_same]
  | false =>
    rw [if_neg Bool.false_ne_true, State.closeDoor]
    by_cases hd : (s.zone n).doorDegraded = true
    · refine (if_pos hd).trans (State.setZone_putZone_door ha (by exact ha) ?_)
      rw [State.doored, if_neg Bool.false_ne_true, if_pos hd]
    · refine (if_neg hd).trans ?_
      rw [State.doored, if_neg Bool.false_ne_true, if_neg hd, State.doorAlert_eq, State.modeAlert_same]

theorem Zone.follows_iff (z : Zone) (line : Nat) :
    z.follows line = true ↔ z.cfg.active = true ∧ z.cfg.doorLine = some line := by
  simp [Zone.follows]

theorem Zone.follows_congr {z z' : Zone} (h : z'.cfg = z.cfg) (line : Nat) : z'.follows line = z.follows line := by
  simp [Zone.follows, h]

/-! Several zones, several lines -/

/-- From `s` the changes of the lines have reached the zones `D` and no other, which gives `u`; `w` holds the alerts. -/
structure State.delivered (s u w : State) (D : Nat → Prop) : Prop where
  reached : ∀ n, D n → u.zone n = s.doorFollowed (s.zone n)
  rest : ∀ n, ¬D n → u.zone n = s.zone n
  frame : u = { s with zones := u.zones, alerts := u.alerts, overflow := u.overflow }
  queue : w.sameQueue u

section Delivered

variable {s u w : State} {D : Nat → Prop}

theorem State.delivered_start (h : w.sameQueue s) : s.delivered s w fun _ => False where
  reached _ hn := hn.elim
  rest _ _ := rfl
  frame := rfl
  queue := h

theorem State.delivered.congr {E : Nat → Prop} (h : s.delivered u w D) (hE : ∀ n, D n ↔ E n) : s.delivered u w E where
  reached n hn := h.reached n ((hE n).2 hn)
  rest n hn := h.rest n fun hd => hn ((hE n).1 hd)
  frame := h.frame
  queue := h.queue

theorem State.delivered.cfg (h : s.delivered u w D) (n : Nat) : (u.zone n).cfg = (s.zone n).cfg := by
  by_cases hn : D n
  · rw [h.reached n hn, State.doorFollowed, State.doored_cfg]
  · rw [h.rest n hn]

theorem State.delivered.doored (h : s.delivered u w D) (b : Bool) (z : Zone) : u.doored b z = s.doored b z := by
  rw [h.frame]
  rfl

/-- One more zone takes its line's change. -/
theorem State.delivered.step {n line : Nat} (h : s.delivered u w D) (hn : ¬D n) (hf : (s.zone n).follows line = true) :
    s.delivered (if s.lineOpen line then u.openDoor n else u.closeDoor n)
      (w.doorAlert n (s.zone n) (s.doorFollowed (s.zone n))) fun m => D m ∨ m = n := by
  obtain ⟨ha, hline⟩ := (Zone.follows_iff _ _).1 hf
  have hz : u.zone n = s.zone n := h.rest n hn
  have hau : (u.zone n).cfg.active = true := hz ▸ ha
  have hnew : u.doored (s.lineOpen line) (s.zone n) = s.doorFollowed (s.zone n) := by
    rw [h.doored, State.doorFollowed, hline]
    rfl
  rw [State.door_eq (s.lineOpen line) hau, hz, hnew]
  have hzone (m : Nat) : ((u.setZone n (s.doorFollowed (s.zone n))).doorAlert n (s.zone n)
      (s.doorFollowed (s.zone n))).zone m = (u.setZone n (s.doorFollowed (s.zone n))).zone m := by
    rw [State.doorAlert_eq, State.modeAlert_zone]
  refine ⟨fun m hm => ?_, fun m hm => ?_, ?_, ?_⟩
  · rw [hzone]
    by_cases hmn : m = n
    · rw [hmn, u.zone_setZone n _ (State.lt_of_active hau)]
    · rw [u.zone_setZone_other n m _ hmn]
      exact h.reached m (hm.resolve_right hmn)
  · rw [hzone, u.zone_setZone_other n m _ fun hmn => hm (.inr hmn)]
    exact h.rest m fun hd => hm (.inl hd)
  · rw [State.doorAlert_eq, State.modeAlert_eta, State.setZone, h.frame]
  · have hq : w.sameQueue (u.setZone n (s.doorFollowed (s.zone n))) := h.queue
    simp only [State.doorAlert_eq]
    exact hq.modeAlert _ _ _ _

/-- The zones of a list take a line's change, in the order of the list. -/
theorem State.delivered.zones {line : Nat} : ∀ {L : List Nat} {u w : State} {D : Nat → Prop}, s.delivered u w D →
    L.Nodup → (∀ n ∈ L, (s.zone n).follows line = true → ¬D n) →
    s.delivered
      (L.foldl
        (fun v n => if (v.zone n).follows line then (if s.lineOpen line then v.openDoor n else v.closeDoor n) else v) u)
      (L.foldl
        (fun v n => if (s.zone n).follows line then v.doorAlert n (s.zone n) (s.doorFollowed (s.zone n)) else v) w)
      fun m => D m ∨ (m ∈ L ∧ (s.zone m).follows line = true)
  | [], u, w, D, h, _, _ => h.congr fun n => by simp
  | n :: L, u, w, D, h, hL, hD => by
    obtain ⟨hnL, hL⟩ := List.nodup_cons.1 hL
    rw [List.foldl_cons, List.foldl_cons, Zone.follows_congr (h.cfg n)]
    by_cases hf : (s.zone n).follows line = true
    · rw [if_pos hf, if_pos hf]
      refine ((h.step (hD n (List.mem_cons_self ..) hf) hf).zones hL fun m hm hfm => ?_).congr fun m => ?_
      · rintro (hd | rfl)
        · exact hD m (List.mem_cons_of_mem _ hm) hfm hd
        · exact hnL hm
      · by_cases hmn : m = n
        · simp [hmn, hf]
        · simp [hmn]
    · rw [if_neg hf, if_neg hf]
      refine (h.zones hL fun m hm => hD m (List.mem_cons_of_mem _ hm)).congr fun m => ?_
      by_cases hmn : m = n
      · simp [hmn, hf, hnL]
      · simp [hmn]

/-- A line's change reaches every zone that follows it. -/
theorem State.delivered.line {line : Nat} (h : s.delivered u w D)
    (hD : ∀ n < 64, (s.zone n).follows line = true → ¬D n) :
    s.delivered (u.deliverDoor line (s.lineOpen line)) (w.doorAlerts line s.zone fun n => s.doorFollowed (s.zone n))
      fun m => D m ∨ (m < 64 ∧ (s.zone m).follows line = true) := by
  have hzones := h.zones (line := line) (L := List.range Config.zoneCount) List.nodup_range fun n hn =>
    hD n (List.mem_range.1 hn)
  exact hzones.congr fun m => by rw [List.mem_range]; rfl

end Delivered

theorem State.doorAlerts_congr {line : Nat} {before f g : Nat → Zone}
    (h : ∀ n < 64, (before n).follows line = true → f n = g n) (s : State) :
    s.doorAlerts line before f = s.doorAlerts line before g := by
  refine List.foldl_ext _ _ _ fun w n hn => ?_
  by_cases hf : (before n).follows line = true
  · rw [if_pos hf, if_pos hf, h n (List.mem_range.1 hn) hf]
  · rw [if_neg hf, if_neg hf]

/-! DOOR_OPENING and DOOR_CLOSING -/

theorem State.lineOpen_flipLevel (s : State) {line k : Nat} (hk : k < 8) :
    (s.flipLevel line).lineOpen k = (s.lineOpen k ^^ decide (k = line)) := by
  have hbit : (1#8 <<< line).getLsbD k = decide (k = line) := by
    by_cases hkl : k = line
    · subst hkl; simp [hk]
    · by_cases hlt : k < line
      · simp [hkl, hlt]
      · have hone : (1#8).getLsbD (k - line) = false := by simp; omega
        simp [hkl, hlt, hone]
  simp only [State.lineOpen, State.flipLevel, BitVec.getLsbD_xor, hbit]
  cases s.doorLevel.getLsbD k <;> cases s.settings.inversion.getLsbD k <;> cases decide (k = line) <;> rfl

/-- A change of a line, as DOOR_OPENING and DOOR_CLOSING take it, in the terms both statements share. -/
theorem State.takeDoor_spec {s : State} {line : Nat} (b : Bool) (hline : line < 8) (hr : s.running = true)
    (hopen : s.lineOpen line = !b) :
    ∃ t, s.takeDoor line b = t ∧ t.lineOpen line = b ∧
      (∀ k, k < 8 → k ≠ line → t.lineOpen k = s.lineOpen k) ∧
      (∀ n, n < 64 → (s.zone n).cfg.active = true → (s.zone n).cfg.doorLine = some line →
        t.zone n = s.doored b (s.zone n)) ∧
      (∀ n, (s.zone n).cfg.active = false ∨ (s.zone n).cfg.doorLine ≠ some line → t.zone n = s.zone n) ∧
      t.alerts = (s.doorAlerts line s.zone t.zone).alerts ∧
      t.overflow = (s.doorAlerts line s.zone t.zone).overflow ∧
      t = { s with doorLevel := t.doorLevel, zones := t.zones, alerts := t.alerts, overflow := t.overflow } := by
  obtain ⟨v, hv⟩ : ∃ v, v = s.flipLevel line := ⟨_, rfl⟩
  have hvopen (k : Nat) (hk : k < 8) : v.lineOpen k = (s.lineOpen k ^^ decide (k = line)) :=
    hv ▸ s.lineOpen_flipLevel hk
  have hnew : v.lineOpen line = b := by simp [hvopen line hline, hopen]
  have hvzone : v.zone = s.zone := by subst hv; rfl
  have hvdoored (z : Zone) : v.doored b z = s.doored b z := by subst hv; rfl
  have hd : v.delivered (v.deliverDoor line b) (s.doorAlerts line v.zone fun n => v.doorFollowed (v.zone n))
      fun m => False ∨ (m < 64 ∧ (v.zone m).follows line = true) := by
    have hqueue : s.sameQueue v := by subst hv; exact ⟨rfl, rfl, rfl⟩
    have h := (State.delivered_start hqueue).line (line := line) fun n _ _ => id
    rwa [hnew] at h
  have htake : s.takeDoor line b = v.deliverDoor line b := by
    rw [State.takeDoor, if_pos ⟨hr, by simp [hopen]⟩, hv]
  obtain ⟨t, ht⟩ : ∃ t, t = v.deliverDoor line b := ⟨_, rfl⟩
  rw [← ht, hvzone] at hd
  have hlines (k : Nat) : t.lineOpen k = v.lineOpen k := by rw [hd.frame]; rfl
  have halerts : (s.doorAlerts line s.zone fun n => v.doorFollowed (s.zone n)) = s.doorAlerts line s.zone t.zone :=
    State.doorAlerts_congr (fun n hn hf => by rw [hd.reached n (.inr ⟨hn, hf⟩), hvzone]) s
  obtain ⟨hqalerts, hqover, -⟩ := hd.queue
  rw [halerts] at hqalerts hqover
  refine ⟨t, htake.trans ht.symm, (hlines line).trans hnew, fun k hk hkl => ?_, fun n hn ha hl => ?_, fun n hn => ?_,
    hqalerts, hqover, ?_⟩
  case refine_1 => rw [hlines, hvopen k hk]; simp [hkl]
  case refine_2 =>
    rw [hd.reached n (.inr ⟨hn, (Zone.follows_iff _ _).2 ⟨ha, hl⟩⟩), hvzone, State.doorFollowed, hl, ← hvdoored]
    exact congrArg (fun b => v.doored b (s.zone n)) hnew
  case refine_3 =>
    rw [hd.rest n, hvzone]
    rw [Zone.follows_iff]
    rintro (hf | ⟨-, ha, hl⟩)
    · exact hf
    · rcases hn with hn | hn
      · simp [ha] at hn
      · exact hn hl
  case refine_4 =>
    rw [hd.frame, hv]
    rfl

/-- A row whose change the line already has leaves the part as it is. -/
theorem State.takeDoor_same {s : State} {line : Nat} {b : Bool} (h : s.lineOpen line = b) : s.takeDoor line b = s := by
  rw [State.takeDoor, if_neg (by simp [h])]

theorem exec_doorOpening {s : State} (line : Fin 8) (hc : s.calm = true) :
    exec (.doorOpening line) s = .next (s.takeDoor line.val true) := by
  show execDoorOpening line s = _
  rw [execDoorOpening, State.takeDue_of_quiet (State.calm_iff.1 hc).2]

theorem exec_doorClosing {s : State} (line : Fin 8) (hc : s.calm = true) :
    exec (.doorClosing line) s = .next (s.takeDoor line.val false) := by
  show execDoorClosing line s = _
  rw [execDoorClosing, State.takeDue_of_quiet (State.calm_iff.1 hc).2]

/-- Settles O25: both rows are `takeDoor_spec`, and `doored` is the zone the statement writes out. -/
theorem doorsAreFollowed : Obligations.DoorsAreFollowed := by
  refine ⟨fun s line hc hl => ?_, fun s line hc hl => ?_, fun s line hc => ⟨fun hl => ?_, fun hl => ?_⟩,
    fun s n old new => ⟨fun h1 h2 => ?_, fun h1 h2 => ?_, fun h => ?_⟩⟩
  case refine_1 =>
    obtain ⟨t, ht, hopen, hother, hfollow, hrest, halerts, hover, hframe⟩ :=
      State.takeDoor_spec true line.isLt (State.calm_iff.1 hc).1 hl
    refine ⟨t, ht ▸ exec_doorOpening line hc, hopen, hother, ?_, hrest, halerts, hover, hframe⟩
    rintro n z u rfl hn ha hline rfl
    rw [hfollow n hn ha hline, State.doored, if_pos rfl]
    by_cases hg : (s.zone n).cfg.doorGrace = 0 <;> simp [hg]
  case refine_2 =>
    obtain ⟨t, ht, hopen, hother, hfollow, hrest, halerts, hover, hframe⟩ :=
      State.takeDoor_spec false line.isLt (State.calm_iff.1 hc).1 hl
    refine ⟨t, ht ▸ exec_doorClosing line hc, hopen, hother, ?_, hrest, halerts, hover, hframe⟩
    rintro n z u rfl hn ha hline rfl
    rw [hfollow n hn ha hline, State.doored, if_neg Bool.false_ne_true]
    by_cases hd : (s.zone n).doorDegraded = true <;> simp [hd]
  case refine_3 => rw [exec_doorOpening line hc, State.takeDoor_same hl]
  case refine_4 => rw [exec_doorClosing line hc, State.takeDoor_same hl]
  case refine_5 => simp [State.doorAlert, h1, h2]
  case refine_6 => simp [State.doorAlert, h1, h2]
  case refine_7 => rw [State.doorAlert_eq, h, State.modeAlert_same]

end Sys2Proof.Machine

/-! PROOFS. SETUNIT (R189): the settings at once, and what a new stale rate and new inversions bring. -/

namespace Sys2Proof.Machine

-- One proof after another: elaborated side by side, so many short ones outgrow the memory a compile may take.
set_option Elab.async false

open Sys2Proof

/-! The fields a request in hand has been checked for (R183) -/

theorem State.takes_fieldsOk {s : State} {l : Link} {c : Instr} (h : s.takes l c = true) : fieldsOk c = true := by
  simp only [State.takes, State.admits, Bool.and_eq_true] at h
  exact h.1.2

theorem State.grants_fieldsOk {s : State} {l : Link} {c : Instr} (h : s.grants l c = true) : fieldsOk c = true := by
  simp only [State.grants, State.admits, Bool.and_eq_true] at h
  exact h.1.1.2

theorem yes_flagOf {b : Byte} (h : flagOk b = true) : yes (flagOf b) = [b] := by
  have hb : b = 0 ∨ b = 1 := by simp only [flagOk, decide_eq_true_eq] at h; bv_omega
  rcases hb with rfl | rfl <;> rfl

@[simp] theorem u8_toNat (b : Byte) : u8 b.toNat = [b] := by simp [u8]

/-- The settings of a SETUNIT are reported by the bytes that carried them. -/
theorem encSettings_settingsOf {f : UnitFields} (h : unitFieldsOk f = true) :
    encSettings (settingsOf f) =
      [f.arbiterMode, f.alertOrder, f.hostLimit, f.floorLimit, f.staleRate, f.watchBlock, f.inversion] := by
  simp only [unitFieldsOk, Bool.and_eq_true, decide_eq_true_eq] at h
  obtain ⟨⟨⟨⟨hmode, horder⟩, -⟩, -⟩, hblock⟩ := h
  have hmode' : f.arbiterMode = 0 ∨ f.arbiterMode = 1 ∨ f.arbiterMode = 2 := by bv_omega
  have horder' : f.alertOrder = 0 ∨ f.alertOrder = 1 := by bv_omega
  have harbiter : arbiterCode (settingsOf f).arbiterMode = f.arbiterMode := by
    rcases hmode' with h | h | h <;> simp only [settingsOf, h] <;> rfl
  have halert : orderCode (settingsOf f).alertOrder = f.alertOrder := by
    rcases horder' with h | h <;> simp only [settingsOf, h] <;> rfl
  simp only [encSettings, harbiter, halert]
  simp [settingsOf, yes_flagOf hblock]

/-! A new stale rate (R63) -/

/-- A stale active zone charges the stale rate (R32). -/
theorem State.recompute_stale (s : State) {z : Zone} (ha : z.cfg.active = true) (hs : z.stale = true) :
    s.recompute z = { z with mode := .degraded, eRate := s.settings.staleRate, pRate := 0 } :=
  s.recompute_eq (zoneMode_stale ha hs) (by simp [zoneRates, ha, hs])

/-- The settings of a SETUNIT in force, the arbiter and the stale zones following them (R63, R144). -/
def State.withSettings (s : State) (f : UnitFields) : State :=
  (({ s with settings := settingsOf f } : State).applyArbiterMode s.settings).applyStaleRate s.settings

theorem State.applyArbiterMode_eq (old : UnitSettings) (s : State) :
    s.applyArbiterMode old =
      { s with
        portCount := if old.arbiterMode = s.settings.arbiterMode then s.portCount else 0
        owed := if old.arbiterMode = s.settings.arbiterMode then s.owed else [] } := by
  unfold State.applyArbiterMode
  split <;> rfl

theorem State.applyStaleRate_eq (old : UnitSettings) (s : State) :
    s.applyStaleRate old =
      { s with
        zones :=
          if old.staleRate = s.settings.staleRate then s.zones
          else
            s.zones.map fun z =>
              if z.cfg.active && z.stale then { z with mode := .degraded, eRate := s.settings.staleRate, pRate := 0 }
              else z } := by
  have hmap (z : Zone) : (if z.cfg.active && z.stale then s.recompute z else z) =
      if z.cfg.active && z.stale then { z with mode := .degraded, eRate := s.settings.staleRate, pRate := 0 } else z := by
    split
    · next h =>
      obtain ⟨ha, hs⟩ := Bool.and_eq_true_iff.1 h
      exact s.recompute_stale ha hs
    · rfl
  unfold State.applyStaleRate State.recomputeStale
  simp only [hmap]
  split <;> rfl

theorem State.withSettings_eq (s : State) (f : UnitFields) :
    s.withSettings f =
      { s with
        settings := settingsOf f
        portCount := if s.settings.arbiterMode = (settingsOf f).arbiterMode then s.portCount else 0
        owed := if s.settings.arbiterMode = (settingsOf f).arbiterMode then s.owed else []
        zones :=
          if s.settings.staleRate = f.staleRate.toNat then s.zones
          else
            s.zones.map fun z =>
              if z.cfg.active && z.stale then { z with mode := .degraded, eRate := f.staleRate.toNat, pRate := 0 }
              else z } := by
  rw [State.withSettings, State.applyStaleRate_eq, State.applyArbiterMode_eq]
  rfl

theorem State.withSettings_zone (s : State) (f : UnitFields) (n : Nat) :
    (s.withSettings f).zone n =
      if s.settings.staleRate ≠ f.staleRate.toNat ∧ (s.zone n).cfg.active = true ∧ (s.zone n).stale = true then
        { s.zone n with mode := .degraded, eRate := f.staleRate.toNat, pRate := 0 }
      else s.zone n := by
  rw [State.withSettings_eq]
  by_cases hrate : s.settings.staleRate = f.staleRate.toNat
  · simp [State.zone, hrate]
  · simp only [hrate, if_false]
    have hmap := s.zone_mapZones (fun z => if z.cfg.active && z.stale then
      { z with mode := .degraded, eRate := f.staleRate.toNat, pRate := 0 } else z) n
    refine Eq.trans hmap ?_
    by_cases hn : n < s.zones.length
    · simp [hn, hrate]
    · rw [s.zone_beyond n (by omega), if_neg hn, if_neg fun h => absurd h.2.1 (by decide)]

/-! New inversions (R112) -/

/-- The lines of a list whose inversion changed are delivered one after another, from a state whose settings they are
read from. -/
theorem State.delivered.lines {s : State} (old : UnitSettings) : ∀ {L : List Nat} {u w : State} {D : Nat → Prop},
    s.delivered u w D → L.Nodup → (∀ n d, d ∈ L → (s.zone n).follows d = true → ¬D n) →
    s.delivered
      (L.foldl
        (fun v d =>
          if old.inversion.getLsbD d = v.settings.inversion.getLsbD d then v else v.deliverDoor d (v.lineOpen d)) u)
      (L.foldl
        (fun v d =>
          if old.inversion.getLsbD d = s.settings.inversion.getLsbD d then v
          else v.doorAlerts d s.zone fun n => s.doorFollowed (s.zone n)) w)
      fun n => D n ∨ ∃ d ∈ L, old.inversion.getLsbD d ≠ s.settings.inversion.getLsbD d ∧ n < 64 ∧
        (s.zone n).follows d = true
  | [], u, w, D, h, _, _ => h.congr fun n => by simp
  | d :: L, u, w, D, h, hL, hD => by
    obtain ⟨hdL, hL⟩ := List.nodup_cons.1 hL
    have hsettings : u.settings = s.settings := by rw [h.frame]
    have hopen : u.lineOpen d = s.lineOpen d := by rw [h.frame]; rfl
    rw [List.foldl_cons, List.foldl_cons, hsettings, hopen]
    by_cases hi : old.inversion.getLsbD d = s.settings.inversion.getLsbD d
    · rw [if_pos hi, if_pos hi]
      refine (h.lines old hL fun n k hk => hD n k (List.mem_cons_of_mem _ hk)).congr fun n => ?_
      simp [hi]
    · rw [if_neg hi, if_neg hi]
      have hline := h.line (line := d) fun n _ hf => hD n d (List.mem_cons_self ..) hf
      refine (hline.lines old hL fun n k hk hf => ?_).congr fun n => ?_
      · rintro (hd | ⟨-, hfd⟩)
        · exact hD n k (List.mem_cons_of_mem _ hk) hf hd
        · obtain ⟨-, h1⟩ := (Zone.follows_iff _ _).1 hf
          obtain ⟨-, h2⟩ := (Zone.follows_iff _ _).1 hfd
          have hkd : k = d := by simpa [h1] using h2
          exact hdL (hkd ▸ hk)
      · simp [hi, or_assoc]

theorem State.applyInversion_delivered {s w : State} (old : UnitSettings) (hw : w.sameQueue s) :
    s.delivered (s.applyInversion old)
      ((List.range 8).foldl
        (fun v d =>
          if old.inversion.getLsbD d = s.settings.inversion.getLsbD d then v
          else v.doorAlerts d s.zone fun n => s.doorFollowed (s.zone n)) w)
      fun n => ∃ d ∈ List.range 8, old.inversion.getLsbD d ≠ s.settings.inversion.getLsbD d ∧ n < 64 ∧
        (s.zone n).follows d = true :=
  ((State.delivered_start hw).lines old List.nodup_range fun _ _ _ _ => id).congr fun n => by simp

theorem State.applyInversion_same {s : State} {old : UnitSettings} (h : old.inversion = s.settings.inversion) :
    s.applyInversion old = s := by
  have hfold : ∀ L : List Nat, L.foldl (fun (v : State) d =>
      if old.inversion.getLsbD d = v.settings.inversion.getLsbD d then v else v.deliverDoor d (v.lineOpen d)) s = s := by
    intro L
    induction L with
    | nil => rfl
    | cons d L ih => rwa [List.foldl_cons, if_pos (by rw [h])]
  exact hfold _

/-! SETUNIT -/

section SetUnit

variable {s : State} {tag : Byte} {f : UnitFields}

theorem exec_setUnit (ht : s.takes .host (.setUnit .host tag f) = true) (hq : s.quiesce = .active) :
    exec (.setUnit .host tag f) s =
      .next
        ((((s.holding .host (.setUnit .host tag f)).withSettings f).applyInversion s.settings).replies .host 0x03 tag
          [0x00, f.arbiterMode, f.alertOrder, f.hostLimit, f.floorLimit, f.staleRate, f.watchBlock, f.inversion]) := by
  refine (serve_taken (own := ownSetUnit f) rfl ht).trans ?_
  have hown : ownSetUnit f (s.holding .host (.setUnit .host tag f)) =
      (((s.holding .host (.setUnit .host tag f)).withSettings f).applyInversion s.settings,
        stDone :: encSettings (settingsOf f)) := if_neg (by simp [State.holding, hq])
  rw [hown, encSettings_settingsOf (State.takes_fieldsOk ht)]
  rfl

end SetUnit

/-- Settles O32: the settings and stale zones are `withSettings`, the lines whose inversion changed are delivered by
`applyInversion_delivered`. -/
theorem unitIsSet : Obligations.UnitIsSet := by
  refine ⟨fun s tag f ht hq => ?_, fun s tag f ht hq hi => ?_, fun s u w tag f y ht hq hy hu => ?_⟩
  case refine_1 =>
    refine (serve_taken (own := ownSetUnit f) rfl ht).trans ?_
    have hown : ownSetUnit f (s.holding .host (.setUnit .host tag f)) =
        (s.holding .host (.setUnit .host tag f), [stQuiesced]) := if_pos (by simpa [State.holding] using hq)
    rw [hown]
    rfl
  case refine_2 =>
    have hsame : s.settings.inversion = ((s.holding .host (.setUnit .host tag f)).withSettings f).settings.inversion := by
      rw [State.withSettings_eq]
      exact hi.symm
    rw [exec_setUnit ht hq, State.applyInversion_same hsame, State.withSettings_eq]
    rfl
  case refine_3 =>
    obtain ⟨v, hv⟩ : ∃ v, v = (s.holding .host (.setUnit .host tag f)).withSettings f := ⟨_, rfl⟩
    have hvzone : v.zone = y := by
      funext n
      rw [hv, State.withSettings_zone, hy]
      rfl
    have hvsettings : v.settings = settingsOf f := by rw [hv, State.withSettings_eq]
    have hqueue : s.sameQueue v := by
      rw [hv, State.withSettings_eq]
      exact ⟨rfl, rfl, rfl⟩
    have hd := State.applyInversion_delivered s.settings hqueue
    have hdoored (b : Bool) (z : Zone) : v.doored b z = u.doored b z := by
      rw [hv, hu, State.withSettings_eq]
      rfl
    have hopen (d : Nat) : v.lineOpen d = (s.doorLevel.getLsbD d ^^ f.inversion.getLsbD d) := by
      rw [hv, State.withSettings_eq]
      rfl
    have hycfg (n : Nat) : (y n).cfg = (s.zone n).cfg := by rw [hy]; split <;> rfl
    have hyevents (n : Nat) : (y n).doorEvents = (s.zone n).doorEvents := by rw [hy]; split <;> rfl
    have hydegraded (n : Nat) : (y n).doorDegraded = (s.zone n).doorDegraded := by rw [hy]; split <;> rfl
    refine ⟨v.applyInversion s.settings, ?_, ?_, fun n d hn hd8 ha hline hinv => ?_, fun n d h => ?_, fun hw => ?_⟩
    case refine_1 => rw [exec_setUnit ht hq, hv]
    case refine_2 =>
      rw [hd.frame, hv, State.withSettings_eq]
      rfl
    case refine_3 =>
      have hreached : (v.applyInversion s.settings).zone n = v.doorFollowed (y n) := by
        rw [hd.reached n ⟨d, List.mem_range.2 hd8, by rwa [hvsettings], hn, by
          rw [hvzone, Zone.follows_iff, hycfg]; exact ⟨ha, hline⟩⟩, hvzone]
      rw [hreached, State.doorFollowed, hycfg, hline, hdoored]
      have hdoor : v.doorOf (some d) = (s.doorLevel.getLsbD d ^^ f.inversion.getLsbD d) := hopen d
      rw [hdoor]
      refine ⟨fun h => ?_, fun h => ?_⟩
      · rw [h, State.doored, if_pos rfl, ← hycfg, ← hyevents]
      · rw [h, State.doored, if_neg Bool.false_ne_true, ← hydegraded]
    case refine_4 =>
      rw [hd.rest n, hvzone]
      rintro ⟨k, -, hk, -, hf⟩
      rw [hvzone, Zone.follows_iff, hycfg] at hf
      rw [hvsettings] at hk
      obtain ⟨ha, hline⟩ := hf
      rcases h with h | h | ⟨h, hi⟩
      · simp [ha] at h
      · simp [hline] at h
      · have hkd : k = d := by simpa [hline] using h
        exact hk (hkd ▸ hi)
    case refine_5 =>
      have hfold : (List.range 8).foldl
          (fun x d =>
            if s.settings.inversion.getLsbD d = v.settings.inversion.getLsbD d then x
            else x.doorAlerts d v.zone fun n => v.doorFollowed (v.zone n)) s = w := by
        rw [hw, hvsettings, hvzone]
        refine List.foldl_ext _ _ _ fun x d hd8 => ?_
        by_cases hi : s.settings.inversion.getLsbD d = f.inversion.getLsbD d
        · exact (if_pos hi).trans (if_pos hi).symm
        · refine (if_neg hi).trans (Eq.trans ?_ (if_neg hi).symm)
          refine State.doorAlerts_congr (fun n hn hf => ?_) x
          rw [hd.reached n ⟨d, hd8, by rwa [hvsettings], hn, by rwa [hvzone]⟩, hvzone]
      obtain ⟨halerts, hover, -⟩ := hd.queue
      exact ⟨halerts.trans (by rw [hfold]), hover.trans (by rw [hfold])⟩

end Sys2Proof.Machine

/-! PROOFS. SETZONE (2.2): the refusals of R28, and a zone under its new configuration (R29, R30, R110, R117). -/

namespace Sys2Proof.Machine

-- One proof after another: elaborated side by side, so many short ones outgrow the memory a compile may take.
set_option Elab.async false

open Sys2Proof

/-! A zone under a new configuration -/

section Reconfigure

variable (s : State) (z : Zone) (c : ZoneConfig)

/-- A new configuration leaves integrals, reading, lists and counts alone. -/
theorem State.reconfigure_kept :
    let x := s.reconfigure z c
    x.cfg = c ∧ x.e = z.e ∧ x.p = z.p ∧ x.reading = z.reading ∧ x.doorEvents = z.doorEvents ∧ x.eList = z.eList ∧
      x.pList = z.pList ∧ x.residents = z.residents ∧ x.counts = z.counts ∧ x.containers = z.containers ∧
      x.evacuating = z.evacuating := by
  simp only [State.reconfigure, State.redoor, Zone.undoored]
  split
  · split
    · split
      · exact ⟨rfl, rfl, rfl, rfl, rfl, rfl, rfl, rfl, rfl, rfl, rfl⟩
      · split <;> exact ⟨rfl, rfl, rfl, rfl, rfl, rfl, rfl, rfl, rfl, rfl, rfl⟩
    · exact ⟨rfl, rfl, rfl, rfl, rfl, rfl, rfl, rfl, rfl, rfl, rfl⟩
  · split <;> exact ⟨rfl, rfl, rfl, rfl, rfl, rfl, rfl, rfl, rfl, rfl, rfl⟩

/-- A zone made active begins stale, its door sampled (R29). -/
theorem State.reconfigure_activate {z : Zone} {c : ZoneConfig} (hz : z.cfg.active = false) (hc : c.active = true) :
    s.reconfigure z c = s.sampleDoor { z with cfg := c, stale := true, countdown := 0 } := by
  simp [State.reconfigure, hz, hc]

/-- A zone that stays active, under another door line (R117). -/
theorem State.reconfigure_newLine {z : Zone} {c : ZoneConfig} (hz : z.cfg.active = true) (hc : c.active = true)
    (hl : z.cfg.doorLine ≠ c.doorLine) : s.reconfigure z c = s.sampleDoor { z.relimit c with cfg := c } := by
  simp only [State.reconfigure, hz, hc, if_true]
  exact if_pos hl

/-- A zone that stays active, under the same door line (R117). -/
theorem State.reconfigure_sameLine {z : Zone} {c : ZoneConfig} (hz : z.cfg.active = true) (hc : c.active = true)
    (hl : z.cfg.doorLine = c.doorLine) :
    s.reconfigure z c =
      { z.relimit c with
        cfg := c
        doorDegraded :=
          if z.cfg.doorGrace = c.doorGrace then z.doorDegraded else z.doorOpen && decide (c.doorGrace ≤ z.openMinutes) } := by
  simp only [State.reconfigure, hz, hc, if_true]
  refine (if_neg (by simpa [Zone.relimit] using hl)).trans ?_
  by_cases hg : z.cfg.doorGrace = c.doorGrace
  · rw [if_neg (by simpa [Zone.relimit] using hg), if_pos hg]
    rfl
  · rw [if_pos (by simpa [Zone.relimit] using hg), if_neg hg]
    rfl

/-- A zone left inactive (R30, R113). -/
theorem State.reconfigure_inactive {z : Zone} {c : ZoneConfig} (hc : c.active = false) :
    s.reconfigure z c = if c.doorLine = none then { z with cfg := c }.doorless else { z with cfg := c } := by
  simp only [State.reconfigure, hc, Bool.false_eq_true, if_false]
  rfl

/-- Without a door line no door is open (R113). -/
theorem State.reconfigure_noLine {z : Zone} {c : ZoneConfig} (hl : c.doorLine = none) (hz : z.cfg.doorLine ≠ none) :
    let x := s.reconfigure z c
    x.doorOpen = false ∧ x.openMinutes = 0 ∧ x.doorDegraded = false := by
  have hsample (w : Zone) (hw : w.cfg = c) :
      (s.sampleDoor w).doorOpen = false ∧ (s.sampleDoor w).openMinutes = 0 ∧ (s.sampleDoor w).doorDegraded = false := by
    have hdoor : s.doorOf w.cfg.doorLine = false := by rw [hw, hl]; rfl
    simp [State.sampleDoor, hdoor]
  dsimp only
  by_cases hc : c.active = true
  · by_cases ha : z.cfg.active = true
    · rw [s.reconfigure_newLine ha hc (by rwa [hl])]
      exact hsample _ rfl
    · rw [s.reconfigure_activate (by simpa using ha) hc]
      exact hsample _ rfl
  · rw [s.reconfigure_inactive (by simpa using hc), if_pos hl]
    exact ⟨rfl, rfl, rfl⟩

end Reconfigure

/-- The queue after a change of mode is formed from the queue and the clock alone. -/
theorem State.alerts_modeAlert_congr {s t : State} (halerts : t.alerts = s.alerts) (hclock : t.clock = s.clock)
    (cause : Cause) (n : Nat) (a b : ZoneMode) :
    (t.modeAlert cause n a b).alerts = (s.modeAlert cause n a b).alerts := by
  cases a <;> cases b
  · exact halerts
  · exact State.alerts_raise_congr _ _ _ halerts hclock
  · exact State.alerts_raise_congr _ _ _ halerts hclock
  · exact halerts

/-! Refusals (R28) -/

section Refusals

variable {s : State} {f : ZoneFields}

theorem Zone.uproots_iff (z : Zone) (f : ZoneFields) :
    z.uproots (zoneConfigOf f) = true ↔ (z.cfg.active = true ∧ f.active = 0) ∨ z.cfg.kind ≠ zoneKindOf f.kind := by
  simp [Zone.uproots, zoneConfigOf, flagOf]

@[simp] theorem State.granted_heldByBatch (s : State) (l : Link) (i : Instr) (n : Nat) :
    (s.granted l i).heldByBatch n = s.heldByBatch n := by
  simp only [State.heldByBatch, State.granted_batches, State.granted_container]

/-- The refusals of R28 in their order, as `setZoneRefusal` finds them under the grant. -/
theorem State.setZoneRefusal_granted (s : State) (l : Link) (i : Instr) (n : Nat) (c : ZoneConfig) :
    (s.granted l i).setZoneRefusal n c =
      if (s.zone n).uproots c = true ∧ s.heldByBatch n = true then some stBusy
      else if (s.zone n).uproots c = true ∧ (s.zone n).occupied = true then some stOccupied
      else none := by
  simp [State.setZoneRefusal]

theorem ownSetZone_eq {g : State} (hq : g.quiesce = .active) (f : ZoneFields) :
    ownSetZone f g =
      match g.setZoneRefusal f.zone.toNat (zoneConfigOf f) with
      | some st => (g, [st])
      | none =>
        (g.putZone .door f.zone.toNat (g.reconfigure (g.zone f.zone.toNat) (zoneConfigOf f)), [stDone]) :=
  if_neg (by simp [hq])

end Refusals

/-- Settles O26: the refusals are read off `setZoneRefusal`, an accepted configuration is `putZone` of `reconfigure`, and
each clause one case of it. -/
theorem zoneIsSet : Obligations.ZoneIsSet := by
  refine ⟨fun s tag f ht hq => ?_, fun s tag f hg hq huproots => ⟨fun hheld => ?_, fun hheld hocc => ?_⟩, ?_⟩
  case refine_1 =>
    refine (serve_taken (own := ownSetZone f) rfl ht).trans ?_
    have hown : ownSetZone f (s.holding .host (.setZone .host tag f)) =
        (s.holding .host (.setZone .host tag f), [stQuiesced]) := if_pos (by simpa [State.holding] using hq)
    rw [hown, State.holding, State.setHand_replies]
    rfl
  case refine_2 =>
    refine (serve_granted (own := ownSetZone f) rfl hg).trans ?_
    rw [ownSetZone_eq (by simpa using hq), State.setZoneRefusal_granted,
      if_pos ⟨(Zone.uproots_iff _ _).2 huproots, hheld⟩]
    rfl
  case refine_3 =>
    refine (serve_granted (own := ownSetZone f) rfl hg).trans ?_
    rw [ownSetZone_eq (by simpa using hq), State.setZoneRefusal_granted, if_neg (by simp [hheld]),
      if_pos ⟨(Zone.uproots_iff _ _).2 huproots, by simpa [Zone.occupied] using hocc⟩]
    rfl
  case refine_4 =>
    rintro s tag f z hg hq rfl hn hfree
    obtain ⟨g, hgdef⟩ : ∃ g, g = s.granted .host (.setZone .host tag f) := ⟨_, rfl⟩
    obtain ⟨z, hz⟩ : ∃ z, z = s.zone f.zone.toNat := ⟨_, rfl⟩
    obtain ⟨c, hc⟩ : ∃ c, c = zoneConfigOf f := ⟨_, rfl⟩
    rw [← hz] at hfree ⊢
    have hgz (m : Nat) : g.zone m = s.zone m := by rw [hgdef, State.granted_zone]
    have hrefusal : g.setZoneRefusal f.zone.toNat c = none := by
      rw [hgdef, State.setZoneRefusal_granted, ← hz, hc]
      by_cases hup : z.uproots (zoneConfigOf f) = true
      · obtain ⟨hheld, hres, hcon⟩ := hfree ((Zone.uproots_iff _ _).1 hup)
        simp [hheld, Zone.occupied, hres, hcon]
      · simp [hup]
    have hexec : exec (.setZone .host tag f) s =
        .next ((g.putZone .door f.zone.toNat (g.reconfigure z c)).ends .host 0x30 tag [0x00]) := by
      refine (serve_granted (own := ownSetZone f) rfl hg).trans ?_
      rw [← hgdef, ownSetZone_eq (by rw [hgdef]; simpa using hq), ← hc, hrefusal, hgz, ← hz]
      rfl
    have hlen : f.zone.toNat < g.zones.length := by rw [hgdef]; simpa using hn
    have hputzones := g.putZone_zones .door f.zone.toNat (g.reconfigure z c)
    have hput (m : Nat) : (g.putZone .door f.zone.toNat (g.reconfigure z c)).zone m =
        (g.setZone f.zone.toNat (g.recompute (g.reconfigure z c))).zone m := by
      simp only [State.zone, hputzones, State.setZone]
    obtain ⟨kcfg, ke, kp, kreading, kevents, keList, kpList, kresidents, kcounts, kcontainers, kevacuating⟩ :=
      g.reconfigure_kept z c
    have hactive (h : f.active ≠ 0) : c.active = true := by simpa [hc, zoneConfigOf, flagOf] using h
    have hinactive (h : f.active = 0) : c.active = false := by simp [hc, zoneConfigOf, flagOf, h]
    have hline : c.doorLine = lineOf f.doorLine := by rw [hc]; rfl
    have hdoor (o : Option Nat) : g.doorOf o = s.doorOf o := by
      rw [hgdef]
      cases o <;> rfl
    have halerts : g.alerts = s.alerts := by rw [hgdef]; rfl
    have hclock : g.clock = s.clock := by rw [hgdef]; rfl
    have hgrace (b : Bool) : (b && decide (c.doorGrace = 0)) = (b && decide (f.doorGrace = 0)) := by
      have hiff : c.doorGrace = 0 ↔ f.doorGrace = 0 := by
        rw [hc]
        exact ⟨fun h => BitVec.eq_of_toNat_eq h, fun h => congrArg BitVec.toNat h⟩
      rw [decide_eq_decide.2 hiff]
    have hset : (g.setZone f.zone.toNat (g.recompute (g.reconfigure z c))).alerts = s.alerts := halerts
    have hraise (a b : ZoneMode) : ((g.setZone f.zone.toNat (g.recompute (g.reconfigure z c))).modeAlert .door
        f.zone.toNat a b).alerts = (s.modeAlert .door f.zone.toNat a b).alerts :=
      State.alerts_modeAlert_congr hset hclock _ _ _ _
    have hputactive (ha : z.cfg.active = true) (hf : f.active ≠ 0) :
        (g.putZone .door f.zone.toNat (g.reconfigure z c)).alerts =
          (s.modeAlert .door f.zone.toNat z.mode (g.recompute (g.reconfigure z c)).mode).alerts := by
      rw [State.putZone_active .door (by rwa [hgz, ← hz]) (by rw [kcfg]; exact hactive hf), hraise, hgz, ← hz]
    refine ⟨_, g.recompute (g.reconfigure z c), hexec, ?_, kcfg.trans hc, ke, kp, kreading, kevents, keList, kpList,
      kresidents, kcounts, kcontainers, kevacuating, rfl, ?_, fun ha hf => ?_, fun ha hf => ?_, fun ha hf hl => ?_,
      fun ha hf hl => ?_, fun ha hf hl => ?_, fun hf hl => ?_, fun ha hf ho hm => ?_, fun ha hf ho hm => ?_, fun h => ?_,
      fun m hm => ?_, ?_⟩
    case refine_1 => rw [hput, g.zone_setZone _ _ hlen]
    case refine_2 => rw [hgdef]; rfl
    case refine_3 =>
      rw [g.reconfigure_activate ha (hactive hf)]
      exact ⟨rfl, rfl, rfl, hdoor _, hgrace _⟩
    case refine_4 =>
      by_cases hl : z.cfg.doorLine = c.doorLine
      · rw [g.reconfigure_sameLine ha (hactive hf) hl, hc]
        exact ⟨rfl, rfl⟩
      · rw [g.reconfigure_newLine ha (hactive hf) hl, hc]
        exact ⟨rfl, rfl⟩
    case refine_5 =>
      rw [g.reconfigure_newLine ha (hactive hf) (by rwa [hline])]
      exact ⟨rfl, hdoor _, hgrace _⟩
    case refine_6 =>
      rw [g.reconfigure_sameLine ha (hactive hf) (by rwa [hline]), hc]
      exact ⟨rfl, rfl, rfl⟩
    case refine_7 =>
      rw [g.reconfigure_inactive (hinactive hf), if_neg (by rwa [hline])]
      exact ⟨rfl, rfl, rfl, rfl, rfl⟩
    case refine_8 => exact g.reconfigure_noLine (by rw [hline, hf]; rfl) hl
    case refine_9 => rw [hputactive ha hf, ho, hm]; rfl
    case refine_10 => rw [hputactive ha hf, ho, hm]; rfl
    case refine_11 =>
      by_cases ha : z.cfg.active = true ∧ f.active ≠ 0
      · obtain ⟨ha, hf⟩ := ha
        have hm : z.mode = (g.recompute (g.reconfigure z c)).mode := by
          rcases h with h | h | h
          · simp [ha] at h
          · exact absurd h hf
          · exact h
        rw [hputactive ha hf, ← hm, State.modeAlert_same]
      · rw [State.putZone_inactive .door, hset]
        rw [hgz, ← hz, kcfg]
        by_cases hz' : z.cfg.active = true
        · exact .inr (hinactive (by simpa [hz'] using ha))
        · exact .inl (by simpa using hz')
    case refine_12 => rw [hput, g.zone_setZone_other _ _ _ hm, hgz]
    case refine_13 => rw [← hgdef]; exact g.putZone_eta _ _ _

end Sys2Proof.Machine

/-! PROOFS. Chapter 11, frames: the bytes of a frame one at a time, the frames a link buffers and those it discards. -/

namespace Sys2Proof.Machine

-- One proof after another: elaborated side by side, so many short ones outgrow the memory a compile may take.
set_option Elab.async false

open Sys2Proof

/-! What the Frame Engine writes -/

section Writes

variable (s : State) (l : Link)

@[simp] theorem State.setLink_setLink (a b : LinkState) : (s.setLink l a).setLink l b = s.setLink l b := by
  cases l <;> rfl

theorem State.setLink_link : s.setLink l (s.link l) = s := by cases l <;> rfl

theorem State.link_hunt : (s.hunt l).link l = { s.link l with frame := none } := State.link_setLink ..

/-- The oldest buffered frame goes into a free hand (R182). -/
theorem State.takeFrame_setLink {ls : LinkState} {body : List Byte} {rest : List (List Byte)} (hh : ls.hand = none)
    (hb : ls.buffer = body :: rest) :
    (s.setLink l ls).takeFrame l = s.setLink l { ls with hand := some (decodeBody l body), buffer := rest } := by
  simp only [State.takeFrame, State.link_setLink, hh, hb, State.setLink_setLink]

/-- Nothing is taken into a hand that holds a request, nor from an empty buffer. -/
theorem State.takeFrame_stays {s : State} {l : Link} (h : (s.link l).hand ≠ none ∨ (s.link l).buffer = []) :
    s.takeFrame l = s := by
  unfold State.takeFrame
  dsimp only
  split
  · next hh hb => simp [hh, hb] at h
  · rfl

theorem State.bufferFrame_full {body : List Byte} (h : 4 ≤ (s.link l).buffer.length) :
    (s.hunt l).bufferFrame l body = s.setLink l { s.link l with frame := none, overrun := true } := by
  simp only [State.bufferFrame, State.link_hunt]
  rw [if_neg (by simp only [Config.bufferLimit]; omega)]
  exact State.setLink_setLink ..

theorem State.bufferFrame_room {body : List Byte} (h : (s.link l).buffer.length < 4) :
    (s.hunt l).bufferFrame l body =
      (s.setLink l { s.link l with frame := none, buffer := (s.link l).buffer ++ [body] }).takeFrame l := by
  simp only [State.bufferFrame, State.link_hunt]
  rw [if_pos (by simpa only [Config.bufferLimit] using h)]
  exact congrArg (State.takeFrame · l) (State.setLink_setLink ..)

theorem State.hunt_discardFrame :
    (s.hunt l).discardFrame l =
      (s.setLink l { s.link l with frame := none, badFrame := true }).raiseFault .frameCheck (linkSource l) none none
        none := by
  simp only [State.discardFrame, State.link_hunt]
  exact congrArg (State.raiseFault _ _ _ _ _) (State.setLink_setLink ..)

end Writes

/-! Bytes one at a time (R180) -/

section Bytes

variable {s : State} {l : Link}

theorem State.takeByte_hunting (h : (s.link l).frame = none) (b : Byte) :
    s.takeByte l b = if b = 0x5A then s.keepFrame l [] else s := by
  simp only [State.takeByte, h]
  rfl

theorem State.takeByte_unfinished {got : List Byte} {b : Byte} (h : (s.link l).frame = some got)
    (hj : judgeFrame (got ++ [b]) = .unfinished) : s.takeByte l b = s.keepFrame l (got ++ [b]) := by
  simp only [State.takeByte, h, hj]

theorem State.takeByte_bad {got : List Byte} {b : Byte} (h : (s.link l).frame = some got)
    (hj : judgeFrame (got ++ [b]) = .bad) : s.takeByte l b = (s.hunt l).discardFrame l := by
  simp only [State.takeByte, h, hj]

theorem State.takeByte_good {got body : List Byte} {b : Byte} (h : (s.link l).frame = some got)
    (hj : judgeFrame (got ++ [b]) = .good body) : s.takeByte l b = (s.hunt l).bufferFrame l body := by
  simp only [State.takeByte, h, hj]

/-- A length out of range is bad at once (R180). -/
theorem judgeFrame_length {n : Byte} (rest : List Byte) (h : n.toNat < 2 ∨ 240 < n.toNat) :
    judgeFrame (n :: rest) = .bad := if_pos h

/-- A frame in length, short of its second check byte, is unfinished (R180). -/
theorem judgeFrame_short {n : Byte} {rest : List Byte} (h2 : 2 ≤ n.toNat) (h240 : n.toNat ≤ 240)
    (h : rest.length < n.toNat + 2) : judgeFrame (n :: rest) = .unfinished := by
  have hmax : Config.bodyMax = 240 := rfl
  simp only [judgeFrame]
  rw [if_neg (by omega), if_pos h]

/-- A whole frame with a wrong check is bad (R180). -/
theorem judgeFrame_check {n hi lo : Byte} {body : List Byte} (h2 : 2 ≤ n.toNat) (h240 : n.toNat ≤ 240)
    (hl : body.length = n.toNat) (hc : hi ++ lo ≠ crc (n :: body)) : judgeFrame (n :: (body ++ [hi, lo])) = .bad := by
  have hmax : Config.bodyMax = 240 := rfl
  have hn : BitVec.ofNat 8 body.length = n := by rw [hl]; exact BitVec.eq_of_toNat_eq (by simp)
  have hbad : goodFrameOk body (hi ++ lo) = false := by simp [goodFrameOk, frameCheck, hn, hc]
  simp only [judgeFrame]
  rw [if_neg (by omega), if_neg (by simp [hl])]
  simp [← hl, hbad]

/-- Bytes that leave the frame unfinished are kept, one at a time. -/
theorem State.foldl_takeByte_unfinished : ∀ {bytes got : List Byte} {s : State}, (s.link l).frame = some got →
    (∀ q, q ≠ [] → q <+: bytes → judgeFrame (got ++ q) = .unfinished) →
    bytes.foldl (fun u b => u.takeByte l b) s = s.keepFrame l (got ++ bytes)
  | [], got, s, h, _ => by
    rw [List.foldl_nil, List.append_nil, State.keepFrame, ← h]
    exact (s.setLink_link l).symm
  | b :: bytes, got, s, h, hj => by
    have hb : judgeFrame (got ++ [b]) = .unfinished := hj [b] (by simp) ⟨bytes, rfl⟩
    have hk : ((s.keepFrame l (got ++ [b])).link l).frame = some (got ++ [b]) := by simp [State.keepFrame]
    rw [List.foldl_cons, State.takeByte_unfinished h hb,
      State.foldl_takeByte_unfinished hk fun q hq hp => by
        rw [List.append_assoc]
        exact hj _ (by simp) (List.cons_prefix_cons.2 ⟨rfl, hp⟩)]
    simp [State.keepFrame]

/-- The Frame Engine, hunting, finds a good frame in its bytes (R180). -/
theorem State.foldl_takeByte_good {body : List Byte} {check : Half} (h : (s.link l).frame = none) (h2 : 2 ≤ body.length)
    (h240 : body.length ≤ 240) (hok : goodFrameOk body check = true) :
    (0x5A :: frameRest body check).foldl (fun u b => u.takeByte l b) s = (s.hunt l).bufferFrame l body := by
  have hn : (BitVec.ofNat 8 body.length).toNat = body.length := by rw [BitVec.toNat_ofNat]; omega
  obtain ⟨init, hinit⟩ : ∃ init, init = body ++ [check.extractLsb' 8 8] := ⟨_, rfl⟩
  have hrest : frameRest body check = (BitVec.ofNat 8 body.length :: init) ++ [check.extractLsb' 0 8] := by
    simp [frameRest, hinit]
  have hk : ((s.keepFrame l []).link l).frame = some [] := by simp [State.keepFrame]
  have hfold : (BitVec.ofNat 8 body.length :: init).foldl (fun u b => u.takeByte l b) (s.keepFrame l []) =
      (s.keepFrame l []).keepFrame l (BitVec.ofNat 8 body.length :: init) := by
    refine State.foldl_takeByte_unfinished hk fun q hq hp => ?_
    cases q with
    | nil => exact absurd rfl hq
    | cons m rest =>
      obtain ⟨rfl, hp⟩ := List.cons_prefix_cons.1 hp
      have hlen : rest.length ≤ body.length + 1 := by simpa [hinit] using hp.length_le
      exact judgeFrame_short (by rw [hn]; omega) (by rw [hn]; omega) (by rw [hn]; omega)
  have hjudge : judgeFrame ((BitVec.ofNat 8 body.length :: init) ++ [check.extractLsb' 0 8]) = .good body := by
    rw [← hrest, judgeFrame_whole body check h240 h2, if_pos hok]
  rw [hrest, List.foldl_cons, State.takeByte_hunting h, if_pos rfl, List.foldl_append, hfold, List.foldl_cons,
    List.foldl_nil, State.takeByte_good (by simp [State.keepFrame]) hjudge]
  simp [State.hunt, State.keepFrame]

end Bytes

/-! The frame rows -/

section Rows

variable {s : State} {l : Link}

theorem exec_goodFrame {body : List Byte} {check : Half} (hr : s.ready = true) (hok : goodFrameOk body check = true) :
    exec (.goodFrame l body check) s =
      .next (if s.continues l (frameRest body check) then (s.hunt l).bufferFrame l body else s) := by
  obtain ⟨hreceiving, hquiet⟩ := State.ready_iff.1 hr
  show execGoodFrame l body check s = _
  simp only [execGoodFrame, State.takeDue_of_quiet hquiet, hreceiving, Bool.true_and, hok, if_true]
  split <;> rfl

theorem exec_badFrame {cause : BadCause} (hr : s.ready = true) (hcause : causeHolds cause = true)
    (hcont : s.continues l (badBytes cause) = true) :
    exec (.badFrame l cause) s = .next ((s.hunt l).discardFrame l) := by
  obtain ⟨hreceiving, hquiet⟩ := State.ready_iff.1 hr
  show execBadFrame l cause s = _
  simp [execBadFrame, State.takeDue_of_quiet hquiet, hreceiving, hcause, hcont]

theorem exec_frameSilence {received : List Byte} (hr : s.ready = true) (hin : insideFrame received = true)
    (hcont : s.continues l received = true) :
    exec (.frameSilence l received) s = .next ((s.hunt l).discardFrame l) := by
  obtain ⟨hreceiving, hquiet⟩ := State.ready_iff.1 hr
  show execFrameSilence l received s = _
  simp [execFrameSilence, State.takeDue_of_quiet hquiet, hreceiving, hin, hcont]

theorem exec_replySent {reply : List Byte} (hc : s.calm = true) (hh : (s.link l).hand = some (.replying reply)) :
    exec (.replySent l) s = .next ((s.setHand l none).takeFrame l) := by
  obtain ⟨hr, hquiet⟩ := State.calm_iff.1 hc
  show execReplySent l s = _
  simp [execReplySent, State.takeDue_of_quiet hquiet, hr, State.replyGone, hh]

theorem u16_toNat (h : Half) : u16 h.toNat = [h.extractLsb' 8 8, h.extractLsb' 0 8] := by
  have hhi : BitVec.ofNat 8 (h.toNat / 2 ^ 8) = h.extractLsb' 8 8 :=
    BitVec.eq_of_toNat_eq (by simp [Nat.shiftRight_eq_div_pow])
  have hlo : BitVec.ofNat 8 h.toNat = h.extractLsb' 0 8 := BitVec.eq_of_toNat_eq (by simp)
  rw [u16, hhi, hlo]

theorem State.sending_not_replying (h : s.running = false ∨ (s.link l).hand = none ∨ s.inHand l ≠ none) :
    s.sending l = none := by
  unfold State.sending
  rcases h with h | h | h
  · split
    · exact if_neg (by simp [h])
    · rfl
  · rw [h]
  · unfold State.inHand at h
    split
    · next body hh => simp [hh] at h
    · rfl

end Rows

/-- Settles O27: the frame that a row carries joins the buffer by `bufferFrame`, whose two cases are the statement's. -/
theorem framesAreBuffered : Obligations.FramesAreBuffered := by
  refine ⟨fun s l body check hr h2 h240 hcheck => ?_, fun s l reply hc hh => ⟨fun hb => ?_, fun body rest hb => ?_⟩,
    ⟨rfl, rfl, rfl, rfl⟩, fun b => rfl, fun s l k h => ?_, fun s l body hr hh => ?_⟩
  case refine_1 =>
    have hok : goodFrameOk body check = true := by
      simp [goodFrameOk, Config.bodyMax, h2, h240, frameCheck, hcheck]
    have hexec := exec_goodFrame (l := l) hr hok
    refine ⟨fun hcont => ?_, fun hcont => by rw [hexec, hcont]; rfl, fun hf => ?_⟩
    case refine_1 =>
      rw [hexec, if_pos hcont]
      refine ⟨fun hh hb => ?_, fun hh hb => ?_, fun old rest hh hb hl => ?_, fun hb => ?_⟩
      · rw [s.bufferFrame_room l hb, State.takeFrame_stays (.inl (by simpa using hh))]
      · have hone : (s.link l).buffer ++ [body] = [body] := by rw [hb]; rfl
        rw [s.bufferFrame_room l (by simp [hb])]
        refine (congrArg Host.Outcome.next (s.takeFrame_setLink l
          (ls := { s.link l with frame := none, buffer := (s.link l).buffer ++ [body] }) hh hone)).trans ?_
        simp only [hb]
      · rw [s.bufferFrame_room l (by simp only [hb, List.length_cons]; omega), hb]
        exact congrArg Host.Outcome.next (s.takeFrame_setLink l hh rfl)
      · rw [s.bufferFrame_full l hb]
    case refine_2 =>
      have hcont : s.continues l (frameRest body check) = true := by simp [State.continues, hf]
      rw [hexec, if_pos hcont, ← State.foldl_takeByte_good hf h2 h240 hok]
      rfl
  case refine_2 =>
    rw [exec_replySent hc hh, State.takeFrame_stays (.inr (by simpa using hb))]
  case refine_3 =>
    rw [exec_replySent hc hh]
    exact congrArg Host.Outcome.next (s.takeFrame_setLink l rfl hb)
  case refine_4 => rw [State.txLevel, State.sending_not_replying h]
  case refine_5 =>
    simp [State.sending, hh, hr, frameOf, frameRest, u16_toNat, leadByte, frameCheck]

/-- The check of the nine digits, the known value of this polynomial and this start (R181). -/
theorem crc_example : crc [0x31, 0x32, 0x33, 0x34, 0x35, 0x36, 0x37, 0x38, 0x39] = 0x29B1 := by decide +kernel

/-- Settles O28: every row and byte that finds a bad frame discards it by `hunt_discardFrame`. -/
theorem badFramesAreDiscarded : Obligations.BadFramesAreDiscarded := by
  refine ⟨fun s l n hr hn hcont => ?_, fun s l body check hr h2 h240 hc hcont => ?_, fun s l hr hcont => ?_,
    fun s l n rest hr h2 h240 hlen hcont => ?_, fun s l b hf => ⟨fun hb => ?_, fun hb => ?_⟩,
    fun s l n hf => ⟨fun h2 h240 => ?_, fun hn => ?_⟩,
    fun s l n b got hf h2 h240 => ⟨fun hlen => ?_, fun body hi lo hgot hl hc => ?_⟩, fun bytes got s l hf => ?_,
    fun bytes s l hf => ?_, crc_example⟩
  case refine_1 =>
    have hcause : causeHolds (.length n) = true := by
      have hout : (decide (2 ≤ n.toNat) && decide (n.toNat ≤ 240)) = false := by
        rcases hn with hn | hn
        · simp [Nat.not_le.2 hn]
        · simp [Nat.not_le.2 hn]
      exact congrArg (! ·) hout
    rw [exec_badFrame hr hcause hcont, s.hunt_discardFrame]
  case refine_2 =>
    have hcause : causeHolds (.check body check) = true := by simp [causeHolds, goodFrameOk, frameCheck, hc]
    rw [exec_badFrame hr hcause hcont, s.hunt_discardFrame]
  case refine_3 => rw [exec_frameSilence hr rfl hcont, s.hunt_discardFrame]
  case refine_4 =>
    rw [exec_frameSilence hr (by simp [insideFrame, Config.bodyMax, h2, h240, hlen]) hcont, s.hunt_discardFrame]
  case refine_5 => rw [State.takeByte_hunting hf, if_neg hb]
  case refine_6 =>
    rw [State.takeByte_hunting hf, if_pos hb]
    rfl
  case refine_7 =>
    rw [State.takeByte_unfinished hf (judgeFrame_short h2 h240 (by simp))]
    rfl
  case refine_8 => rw [State.takeByte_bad hf (judgeFrame_length [] hn), s.hunt_discardFrame]
  case refine_9 =>
    rw [State.takeByte_unfinished hf (judgeFrame_short h2 h240 (by simpa using hlen))]
    rfl
  case refine_10 =>
    have hjudge : judgeFrame ((n :: got) ++ [b]) = .bad := by
      rw [List.cons_append, hgot]
      exact judgeFrame_check h2 h240 hl hc
    rw [State.takeByte_bad hf hjudge, s.hunt_discardFrame]
  case refine_11 =>
    simp only [State.continues, hf, List.isPrefixOf_iff_prefix]
    exact ⟨fun ⟨more, h⟩ => ⟨more, h.symm⟩, fun ⟨more, h⟩ => ⟨more, h.symm⟩⟩
  case refine_12 => simp [State.continues, hf]

end Sys2Proof.Machine

/-! PROOFS. Chapter 11, requests: the fields a body spells, the request in hand, STATUS and SETCLOCK. -/

namespace Sys2Proof.Machine

-- One proof after another: elaborated side by side, so many short ones outgrow the memory a compile may take.
set_option Elab.async false

open Sys2Proof

/-! What a body spells (R183, R186) -/

/-- Every command an outcome of parsing can be carries the link, the tag and the kind of the body it was read from. -/
def Spelt (l : Link) (tag kind : Byte) (o : Option Instr) : Prop :=
  ∀ c, o = some c → requestOf c = some (l, tag) ∧ kindCode c = kind

section Spelt

variable {l : Link} {tag kind : Byte}

theorem spelt_none : Spelt l tag kind none := fun _ h => nomatch h

theorem spelt_whole {c : Instr} (hr : requestOf c = some (l, tag)) (hk : kindCode c = kind) (rest : List Byte) :
    Spelt l tag kind (whole c rest) := by
  intro d hd
  unfold whole at hd
  split at hd
  · cases hd
    exact ⟨hr, hk⟩
  · exact nomatch hd

theorem spelt_bind {α : Type} {f : α → Option Instr} (h : ∀ a, Spelt l tag kind (f a)) (o : Option α) :
    Spelt l tag kind (o >>= f) := by
  cases o with
  | none => exact spelt_none
  | some a => exact h a

theorem spelt_ite {p : Prop} [Decidable p] {a b : Option Instr} (ha : Spelt l tag kind a) (hb : Spelt l tag kind b) :
    Spelt l tag kind (if p then a else b) := by
  split
  · exact ha
  · exact hb

/-- One row of the catalogue: the kind decides which layout is read. -/
theorem spelt_row {k : Byte} {a b : Option Instr} (ha : Spelt l tag k a) (hb : Spelt l tag kind b) :
    Spelt l tag kind (if kind = k then a else b) := by
  split
  · next h => exact h ▸ ha
  · exact hb

/-! The layouts -/

theorem parseStamped_spelt {mk : Label → Option Half → Instr} (hr : ∀ a b, requestOf (mk a b) = some (l, tag))
    (hk : ∀ a b, kindCode (mk a b) = kind) (bs : List Byte) : Spelt l tag kind (parseStamped mk bs) :=
  spelt_bind (fun ⟨_, _, _⟩ => spelt_whole (hr _ _) (hk _ _) _) _

theorem parseLabel_spelt {mk : Label → Instr} (hr : ∀ a, requestOf (mk a) = some (l, tag))
    (hk : ∀ a, kindCode (mk a) = kind) (bs : List Byte) : Spelt l tag kind (parseLabel mk bs) :=
  spelt_bind (fun ⟨_, _⟩ => spelt_whole (hr _) (hk _) _) _

theorem parseByte_spelt {mk : Byte → Instr} (hr : ∀ a, requestOf (mk a) = some (l, tag))
    (hk : ∀ a, kindCode (mk a) = kind) (bs : List Byte) : Spelt l tag kind (parseByte mk bs) :=
  spelt_bind (fun ⟨_, _⟩ => spelt_whole (hr _) (hk _) _) _

theorem parseOptByte_spelt {mk : Option Byte → Instr} (hr : ∀ a, requestOf (mk a) = some (l, tag))
    (hk : ∀ a, kindCode (mk a) = kind) (bs : List Byte) : Spelt l tag kind (parseOptByte mk bs) :=
  spelt_bind (fun ⟨_, _⟩ => spelt_whole (hr _) (hk _) _) _

theorem parseByteHalf_spelt {mk : Byte → Half → Instr} (hr : ∀ a b, requestOf (mk a b) = some (l, tag))
    (hk : ∀ a b, kindCode (mk a b) = kind) (bs : List Byte) : Spelt l tag kind (parseByteHalf mk bs) :=
  spelt_bind (fun ⟨_, _⟩ => spelt_bind (fun ⟨_, _⟩ => spelt_whole (hr _ _) (hk _ _) _) _) _

variable (bs : List Byte)

theorem parseEnrol_spelt : Spelt l tag 0x10 (parseEnrol l tag bs) :=
  spelt_bind (fun ⟨_, _⟩ => spelt_bind (fun ⟨_, _⟩ => spelt_bind (fun ⟨_, _⟩ => spelt_bind (fun ⟨_, _⟩ =>
    spelt_bind (fun ⟨_, _⟩ => spelt_bind (fun ⟨_, _⟩ => spelt_bind (fun ⟨_, _⟩ =>
      spelt_ite (spelt_whole rfl rfl _) (spelt_ite (spelt_whole rfl rfl _) spelt_none)) _) _) _) _) _) _) _

theorem parseOpen_spelt : Spelt l tag 0x11 (parseOpen l tag bs) :=
  spelt_bind (fun ⟨_, _⟩ => spelt_bind (fun ⟨_, _⟩ => spelt_bind (fun ⟨_, _⟩ => spelt_whole rfl rfl _) _) _) _

theorem parsePlace_spelt : Spelt l tag 0x12 (parsePlace l tag bs) :=
  spelt_bind (fun ⟨_, _⟩ => spelt_bind (fun ⟨_, _⟩ => spelt_bind (fun ⟨_, _⟩ => spelt_whole rfl rfl _) _) _) _

theorem parseNest_spelt : Spelt l tag 0x14 (parseNest l tag bs) :=
  spelt_bind (fun ⟨_, _⟩ => spelt_bind (fun ⟨_, _⟩ => spelt_bind (fun ⟨_, _⟩ => spelt_whole rfl rfl _) _) _) _

theorem parseHold_spelt : Spelt l tag 0x17 (parseHold l tag bs) :=
  spelt_bind (fun ⟨_, _⟩ => spelt_bind (fun ⟨_, _⟩ => spelt_bind (fun ⟨_, _⟩ => spelt_whole rfl rfl _) _) _) _

theorem parseLookup_spelt : Spelt l tag 0x20 (parseLookup l tag bs) :=
  spelt_bind (fun ⟨_, _⟩ => spelt_bind (fun ⟨_, _⟩ => spelt_whole rfl rfl _) _) _

theorem parseQuiesce_spelt : Spelt l tag 0x05 (parseQuiesce l tag bs) :=
  spelt_bind (fun ⟨_, _⟩ => spelt_ite (spelt_whole rfl rfl _) (spelt_ite (spelt_whole rfl rfl _) spelt_none)) _

theorem parseSetUnit_spelt : Spelt l tag 0x03 (parseSetUnit l tag bs) :=
  spelt_bind (fun ⟨_, _⟩ => spelt_bind (fun ⟨_, _⟩ => spelt_bind (fun ⟨_, _⟩ => spelt_bind (fun ⟨_, _⟩ =>
    spelt_bind (fun ⟨_, _⟩ => spelt_bind (fun ⟨_, _⟩ => spelt_bind (fun ⟨_, _⟩ => spelt_whole rfl rfl _)
      _) _) _) _) _) _) _

theorem parseSetZone_spelt : Spelt l tag 0x30 (parseSetZone l tag bs) :=
  spelt_bind (fun ⟨_, _⟩ => spelt_bind (fun ⟨_, _⟩ => spelt_bind (fun ⟨_, _⟩ => spelt_bind (fun ⟨_, _⟩ =>
    spelt_bind (fun ⟨_, _⟩ => spelt_bind (fun ⟨_, _⟩ => spelt_bind (fun ⟨_, _⟩ => spelt_bind (fun ⟨_, _⟩ =>
      spelt_bind (fun ⟨_, _⟩ => spelt_bind (fun ⟨_, _⟩ => spelt_bind (fun ⟨_, _⟩ => spelt_bind (fun ⟨_, _⟩ =>
        spelt_bind (fun ⟨_, _⟩ => spelt_whole rfl rfl _) _) _) _) _) _) _) _) _) _) _) _) _) _

theorem parseSetClass_spelt : Spelt l tag 0x31 (parseSetClass l tag bs) :=
  spelt_bind (fun ⟨_, _⟩ => spelt_bind (fun ⟨_, _⟩ => spelt_ite (spelt_whole rfl rfl _) <|
    spelt_bind (fun ⟨_, _⟩ =>
      spelt_ite (spelt_whole rfl rfl _) (spelt_ite (spelt_whole rfl rfl _) spelt_none)) _) _) _

theorem parseSetGrid_spelt : Spelt l tag 0x32 (parseSetGrid l tag bs) :=
  spelt_bind (fun ⟨_, _⟩ => spelt_bind (fun ⟨_, _⟩ => spelt_bind (fun ⟨_, _⟩ => spelt_bind (fun ⟨_, _⟩ =>
    spelt_bind (fun ⟨_, _⟩ => spelt_whole rfl rfl _) _) _) _) _) _

theorem parseAmbient_spelt : Spelt l tag 0x38 (parseAmbient l tag bs) :=
  spelt_bind (fun ⟨_, _⟩ => spelt_bind (fun ⟨_, _⟩ => spelt_bind (fun ⟨_, _⟩ => spelt_whole rfl rfl _) _) _) _

theorem parseWatch_spelt : Spelt l tag 0x48 (parseWatch l tag bs) :=
  spelt_bind (fun ⟨_, _⟩ => spelt_ite
    (spelt_bind (fun ⟨_, _⟩ => spelt_bind (fun ⟨_, _⟩ => spelt_bind (fun ⟨_, _⟩ => spelt_bind (fun ⟨_, _⟩ =>
      spelt_whole rfl rfl _) _) _) _) _)
    (spelt_ite (spelt_whole rfl rfl _) (spelt_ite (spelt_whole rfl rfl _) spelt_none))) _

theorem parseSetClock_spelt : Spelt l tag 0x02 (parseSetClock l tag bs) :=
  spelt_bind (fun ⟨_, _⟩ => spelt_whole rfl rfl _) _

/-- Each row of the catalogue reads the layout of its own kind (R186). -/
theorem parseFields_spelt : Spelt l tag kind (parseFields l kind tag bs) :=
  spelt_row (spelt_whole rfl rfl _) <|
  spelt_row (parseSetClock_spelt bs) <|
  spelt_row (parseSetUnit_spelt bs) <|
  spelt_row (spelt_whole rfl rfl _) <|
  spelt_row (parseQuiesce_spelt bs) <|
  spelt_row (spelt_whole rfl rfl _) <|
  spelt_row (parseEnrol_spelt bs) <|
  spelt_row (parseOpen_spelt bs) <|
  spelt_row (parsePlace_spelt bs) <|
  spelt_row (parseStamped_spelt (mk := .pack l tag) (fun _ _ => rfl) (fun _ _ => rfl) bs) <|
  spelt_row (parseNest_spelt bs) <|
  spelt_row (parseStamped_spelt (mk := .unnest l tag) (fun _ _ => rfl) (fun _ _ => rfl) bs) <|
  spelt_row (parseStamped_spelt (mk := .retire l tag) (fun _ _ => rfl) (fun _ _ => rfl) bs) <|
  spelt_row (parseHold_spelt bs) <|
  spelt_row (parseStamped_spelt (mk := .unhold l tag) (fun _ _ => rfl) (fun _ _ => rfl) bs) <|
  spelt_row (parseByteHalf_spelt (mk := .evacuate l tag) (fun _ _ => rfl) (fun _ _ => rfl) bs) <|
  spelt_row (parseLookup_spelt bs) <|
  spelt_row (parseByte_spelt (mk := .zoneInfo l tag) (fun _ => rfl) (fun _ => rfl) bs) <|
  spelt_row (parseByteHalf_spelt (mk := .residents l tag) (fun _ _ => rfl) (fun _ _ => rfl) bs) <|
  spelt_row (parseOptByte_spelt (mk := .batchInfo l tag) (fun _ => rfl) (fun _ => rfl) bs) <|
  spelt_row (parseByte_spelt (mk := .classInfo l tag) (fun _ => rfl) (fun _ => rfl) bs) <|
  spelt_row (parseSetZone_spelt bs) <|
  spelt_row (parseSetClass_spelt bs) <|
  spelt_row (parseSetGrid_spelt bs) <|
  spelt_row (parseAmbient_spelt bs) <|
  spelt_row (parseLabel_spelt (mk := .claim l tag) (fun _ => rfl) (fun _ => rfl) bs) <|
  spelt_row (parseLabel_spelt (mk := .release l tag) (fun _ => rfl) (fun _ => rfl) bs) <|
  spelt_row (parseWatch_spelt bs) <|
  spelt_row (spelt_whole rfl rfl _) <|
  spelt_row (spelt_whole rfl rfl _) <|
  spelt_row (parseOptByte_spelt (mk := .alerts l tag) (fun _ => rfl) (fun _ => rfl) bs) spelt_none

end Spelt

/-- Settles O29: the first part reads `decodeBody` from its conditions, the second is `parseFields_spelt`. -/
theorem bodiesAreDecoded : Obligations.BodiesAreDecoded := by
  refine ⟨fun l kind tag fields => ⟨fun hk => ?_, fun hk hp => ?_, fun hk hp hf => ?_, fun c hk hp hf hc => ?_,
    fun c hk hp hf hc => ?_⟩, fun l kind tag fields => parseFields_spelt fields, fun _ => rfl, fun kind => ?_⟩
  case refine_1 => simp [decodeBody, hk, stBadKind]
  case refine_2 => simp [decodeBody, hk, hp, replyTo, stNotPermitted]
  case refine_3 => simp [decodeBody, hk, hp, hf, replyTo, stBadField]
  case refine_4 => simp [decodeBody, hk, hp, hf, judge, hc, replyTo, stBadField]
  case refine_5 => simp [decodeBody, hk, hp, hf, judge, hc]
  case refine_6 => simp [permitted, floorKinds]

/-! The request in hand (R182, R183) -/

/-- Every request row is served by an owner. -/
theorem exec_request_serve {c : Instr} (h : requestOf c ≠ none) :
    ∃ l tag own, requestOf c = some (l, tag) ∧ ∀ s, exec c s = serve l c own s := by
  cases c
  all_goals first
    | exact absurd rfl h
    | exact ⟨_, _, _, rfl, fun _ => rfl⟩

section InHand

variable {s : State} {l : Link} {c : Instr} {own : Owner}

/-- A link that is not free takes no request, and its own row without it in hand does nothing (R182). -/
theorem State.present_busy (h : (s.link l).free = false) : s.present l c = s := by
  unfold State.present
  split
  · rfl
  · rw [h, Bool.and_false]
    rfl

theorem serve_busy (hc : s.calm = true) (hfree : (s.link l).free = false) :
    serve l c own s = .next (s.serveInHand l c own) := by
  obtain ⟨hr, hq⟩ := State.calm_iff.1 hc
  simp only [serve, State.takeDue_of_quiet hq, hr, if_true, State.present_busy hfree]

theorem serve_admitted {tag : Byte} (hreq : requestOf c = some (l, tag)) (hr : s.ready = true)
    (hfree : (s.link l).free = true) (hp : permitted l (kindCode c) = true) (hf : fieldsOk c = true) :
    serve l c own s = .next ((s.holding l c).serveInHand l c own) := by
  obtain ⟨hreceiving, hq⟩ := State.ready_iff.1 hr
  have hjudge : judge l (kindCode c) tag c = .waiting c := by simp [judge, hp, hf]
  simp only [serve, State.takeDue_of_quiet hq, State.ready_running hr, if_true,
    State.present_idle hreq hreceiving hfree, hjudge]
  rfl

theorem State.holding_ready (hr : s.ready = true) : (s.holding l c).ready = true := by
  cases l <;> exact hr

end InHand

/-- Settles O30: a row is served as `serve_refused`, `serve_admitted` and `serve_busy` say, whatever its owner. -/
theorem requestsInHand : Obligations.RequestsInHand := by
  refine ⟨fun s l c tag hreq hr hh hb hf => ?_, fun s l c tag hreq hc hbusy hhand => ?_⟩
  case refine_1 =>
    obtain ⟨l', tag', own, hreq', hserve⟩ := exec_request_serve (c := c) (by simp [hreq])
    obtain ⟨rfl, rfl⟩ : l' = l ∧ tag' = tag := by simpa [hreq'] using hreq
    have hfree : (s.link l').free = true := (LinkState.free_iff _).2 ⟨hh, hb, hf⟩
    refine ⟨fun hp => ?_, fun hp hfield => ?_, fun hp hfield hw ha => ?_, fun hp hfield => ?_⟩
    case refine_1 =>
      rw [hserve]
      exact serve_refused hreq hr hfree (by simp [judge, hp, replyTo]; rfl)
    case refine_2 =>
      rw [hserve]
      exact serve_refused hreq hr hfree (by simp [judge, hp, hfield, replyTo]; rfl)
    case refine_3 =>
      have hwait : (s.holding l' c).waitsForStore c = true := (State.waitsForStore_setHand ..).trans hw
      have hand : (s.holding l' c).inHand l' = some c := State.inHand_setHand s l' c
      rw [hserve, serve_admitted hreq hr hfree hp hfield, State.serveInHand, if_pos hand, if_pos hwait,
        if_neg (by simp [ha])]
    case refine_4 =>
      have hready := State.holding_ready (l := l') (c := c) hr
      have hcalm : (s.holding l' c).calm = true :=
        State.calm_iff.2 ⟨State.ready_running hready, (State.ready_iff.1 hready).2⟩
      have hbusy : ((s.holding l' c).link l').free = false := by simp [State.holding, LinkState.free]
      rw [hserve, hserve, serve_admitted hreq hr hfree hp hfield, serve_busy hcalm hbusy]
  case refine_2 =>
    obtain ⟨l', tag', own, hreq', hserve⟩ := exec_request_serve (c := c) (by simp [hreq])
    obtain ⟨rfl, rfl⟩ : l' = l ∧ tag' = tag := by simpa [hreq'] using hreq
    have hfree : (s.link l').free = false := by
      rw [Bool.eq_false_iff, ne_eq, LinkState.free_iff]
      rintro ⟨h1, h2, h3⟩
      simp [h1, h2, h3] at hbusy
    have hnot : s.inHand l' ≠ some c := fun h => hhand (by
      unfold State.inHand at h
      split at h
      · next d hd => rw [hd, Option.some.inj h]
      · exact nomatch h)
    rw [hserve, serve_busy hc hfree, State.serveInHand, if_neg hnot]

/-- Settles O31: both owners are served at once and read only what their request leaves alone. -/
theorem statusAndClock : Obligations.StatusAndClock := by
  refine ⟨fun s l tag ht => ?_, fun s tag clock ht => ?_⟩
  · refine (serve_taken (own := ownStatus l) rfl ht).trans ?_
    have hcode : s.captureCode = match s.capture with
        | none => 0
        | some r => if r.kind = .watchMatch then 2 else 1 := by
      unfold State.captureCode State.heldMatch State.heldFault
      cases s.capture with
      | none => rfl
      | some r => by_cases hk : r.kind = .watchMatch <;> simp [hk]
    have hstatus : (s.holding l (.status l tag)).encStatus l = s.encStatus l := by cases l <;> rfl
    have hflags : ((s.holding l (.status l tag)).clearFlags l).replies l 0x01 tag (s.encStatus l) =
        (s.setLink l { s.link l with badFrame := false, overrun := false }).replies l 0x01 tag (s.encStatus l) := by
      cases l <;> rfl
    refine (congrArg Host.Outcome.next ?_)
    show ((s.holding l (.status l tag)).clearFlags l).replies l 0x01 tag ((s.holding l (.status l tag)).encStatus l) = _
    rw [hstatus, hflags, State.encStatus, hcode]
    rfl
  · exact serve_taken (own := ownSetClock clock) rfl ht

end Sys2Proof.Machine

/-! PROOFS. Chapter 7, QUIESCE, ERASE and the Store Arbiter; the order of checks of an item request (4.2). -/

namespace Sys2Proof.Machine

-- One proof after another: elaborated side by side, so many short ones outgrow the memory a compile may take.
set_option Elab.async false

open Sys2Proof

/-! QUIESCE and ERASE -/

/-- Settles O33: each owner's branch is chosen by the quiesce state and the queue, which the grant leaves alone. -/
theorem quiesceStates : Obligations.QuiesceStates := by
  refine ⟨fun s tag q hg hq => ?_, fun s tag hg hb hq => ?_, fun s tag hg h => ?_⟩
  case refine_1 =>
    refine (serve_granted (own := ownQuiesceImmediate) rfl hg).trans ?_
    obtain ⟨g, hgdef⟩ : ∃ g, g = s.granted .host (.quiesceImmediate .host tag) := ⟨_, rfl⟩
    have hquiesce : g.quiesce = s.quiesce := by rw [hgdef, State.granted_quiesce]
    have hbatches : g.batches = s.batches := by rw [hgdef, State.granted_batches]
    have hstays (hna : g.quiesce ≠ .active) : g = { g with quiesce := q } := by rw [hq, ← hquiesce, if_neg hna]
    have hstate : (ownQuiesceImmediate g).1 = { g with quiesce := q } := by
      unfold ownQuiesceImmediate
      cases hs : g.quiesce with
      | active =>
        rw [hq, ← hquiesce, ← hbatches, hs]
        rfl
      | quiescing => exact hstays (by simp [hs])
      | quiesced => exact hstays (by simp [hs])
    have hreply : (ownQuiesceImmediate g).2 = [0x00, quiesceCode q] ++ u8 s.batches.length := by
      show State.quiesceDone (ownQuiesceImmediate g).1 = _
      rw [hstate, State.quiesceDone, hbatches]
      rfl
    rw [← hgdef, hstate, hreply]
    rfl
  case refine_2 =>
    refine (serve_granted (own := ownQuiesceConditional) rfl hg).trans ?_
    have hown : ownQuiesceConditional (s.granted .host (.quiesceConditional .host tag)) =
        ({ s.granted .host (.quiesceConditional .host tag) with quiesce := .quiesced }, [0x00, 2, 0]) := by
      rw [ownQuiesceConditional, if_pos (by simp [hb, hq])]
      simp only [State.quiesceDone, State.granted_batches, hb]
      rfl
    rw [hown]
    rfl
  case refine_3 =>
    refine (serve_granted (own := ownQuiesceConditional) rfl hg).trans ?_
    have hnot : ¬((s.granted .host (.quiesceConditional .host tag)).batches = [] ∧
        (s.granted .host (.quiesceConditional .host tag)).quiesce ≠ .quiescing) := by
      rw [State.granted_batches, State.granted_quiesce]
      rintro ⟨hb, hq⟩
      exact h.elim (fun h => h hb) hq
    rw [ownQuiesceConditional, if_neg hnot, State.quiescePending, State.granted_batches, State.granted_quiesce]
    rfl

/-- Settles O35: the two refusals come before `erase`, whose fields the statement writes out. -/
theorem eraseEmptiesTheStore : Obligations.EraseEmptiesTheStore := by
  refine fun s tag hg => ⟨fun hq => ?_, fun hq hb => ?_, fun hq hb => ?_⟩
  case refine_1 =>
    refine (serve_granted (own := ownErase) rfl hg).trans ?_
    rw [ownErase, if_pos (by simpa using hq)]
    rfl
  case refine_2 =>
    refine (serve_granted (own := ownErase) rfl hg).trans ?_
    rw [ownErase, if_neg (by simp [hq]), if_pos (by simpa using hb), State.granted_batches]
    rfl
  case refine_3 =>
    refine (execErase_accepted hg hq hb).trans ?_
    rw [State.erase, State.granted_zones, State.granted_classes]
    rfl

/-! The Store Arbiter (7.7) -/

section Arbiter

variable {s : State}

theorem State.stepWaiting_iff : s.stepWaiting = true ↔ s.runningBatch ≠ none := by
  simp [State.stepWaiting, Option.isSome_iff_ne_none]

theorem State.arbitrate_drain (hr : s.receiving = true) (hd : s.dueZone ≠ none) : s.arbitrate = .drain := by
  rw [State.arbitrate, if_neg (by simp [hr]), if_pos (Option.isSome_iff_ne_none.2 hd)]

/-- With no step waiting the ports are chosen between (R143, R145). -/
theorem State.arbitrate_ports (hr : s.receiving = true) (hd : s.dueZone = none) (hb : s.runningBatch = none) :
    s.arbitrate = choosePort s.lastServed (s.portWaiting .host) (s.portWaiting .floor) := by
  rw [State.arbitrate, if_neg (by simp [hr]), if_neg (by simp [hd]),
    if_neg (fun h => State.stepWaiting_iff.1 h hb)]

theorem State.arbitrate_withStep (hr : s.receiving = true) (hd : s.dueZone = none) (hb : s.runningBatch ≠ none) :
    s.arbitrate = s.chooseWithStep := by
  rw [State.arbitrate, if_neg (by simp [hr]), if_neg (by simp [hd]), if_pos (State.stepWaiting_iff.2 hb)]

theorem State.chooseWithStep_portsFirst (hm : s.settings.arbiterMode = .portsFirst) :
    s.chooseWithStep =
      if 8 ≤ s.portCount then .step
      else (choosePort s.lastServed (s.portWaiting .host) (s.portWaiting .floor)).orStep := by
  simp only [State.chooseWithStep, hm]
  rfl

theorem State.chooseWithStep_exclusive (hm : s.settings.arbiterMode = .batchExclusive) :
    s.chooseWithStep =
      (choosePort s.lastServed (s.portWaiting .host && s.owed.contains .host)
        (s.portWaiting .floor && s.owed.contains .floor)).orStep := by
  simp [State.chooseWithStep, hm]

/-- A link asked for, the other not asked for or served last, is chosen (R145). -/
theorem choosePort_of_turn {last l : Link} {host floor : Bool}
    (h : match l with
      | .host => host = true ∧ (floor = false ∨ last = .floor)
      | .floor => floor = true ∧ (host = false ∨ last = .host)) :
    choosePort last host floor = .port l := by
  cases l with
  | host =>
    obtain ⟨rfl, rfl | rfl⟩ := h
    · rfl
    · cases floor <;> rfl
  | floor =>
    obtain ⟨rfl, rfl | rfl⟩ := h
    · rfl
    · cases host <;> rfl

/-- A request waits for the store according to its link's hand and whether the state is ACTIVE. -/
theorem State.portWaiting_congr {t : State} (hh : t.hostLink = s.hostLink) (hf : t.floorLink = s.floorLink)
    (hq : t.quiesce = .active ↔ s.quiesce = .active) (l : Link) : t.portWaiting l = s.portWaiting l := by
  have hhand : t.inHand l = s.inHand l := by cases l <;> simp [State.inHand, State.link, hh, hf]
  simp only [State.portWaiting, hhand, State.waitsForStore, ne_eq, hq]

/-- The ports that wait as an exclusive batch completes are owed their grants (R144). -/
theorem State.mem_completeBatch_owed (s : State) (b : Batch) (hm : s.settings.arbiterMode = .batchExclusive) (l : Link) :
    l ∈ (s.completeBatch b).owed ↔ s.portWaiting l = true := by
  obtain ⟨u, hu⟩ : ∃ u, u = (({ s with batches := s.batches.tail } : State).completeJob b.job).raise .batchDone
    (.batch b.number b.job.kind) b.doneValue := ⟨_, rfl⟩
  have hframe : u = { s with
      batches := s.batches.tail, classes := u.classes, zones := u.zones, alerts := u.alerts, overflow := u.overflow } := by
    rw [hu, State.raise_eta, State.completeJob_eta]
  have howed : (s.completeBatch b).owed = [Link.host, Link.floor].filter
      ({ u with quiesce := if u.quiesce = .quiescing then .quiesced else u.quiesce } : State).portWaiting := by
    have hmode : u.settings.arbiterMode = .batchExclusive := by rw [hframe]; exact hm
    rw [hu] at hmode ⊢
    exact congrArg State.owed (if_pos hmode)
  have hwait (k : Link) : ({ u with quiesce := if u.quiesce = .quiescing then .quiesced else u.quiesce } : State).portWaiting
      k = s.portWaiting k := by
    refine State.portWaiting_congr (by rw [hframe]) (by rw [hframe]) ?_ k
    have hquiesce : u.quiesce = s.quiesce := by rw [hframe]
    cases hs : s.quiesce <;> simp [hquiesce, hs]
  rw [howed, List.mem_filter, hwait]
  cases l <;> simp

end Arbiter

/-- Settles O55: `arbitrate` by what waits, the mode and the counts, and the writes of a grant and its end. -/
theorem arbiterChooses : Obligations.ArbiterChooses := by
  refine ⟨fun s h => State.arbitrate_of_not_receiving h, fun s hr hd => State.arbitrate_drain hr hd, ?_,
    fun s l => ⟨rfl, ?_⟩, fun s => ⟨rfl, rfl⟩, fun s => ⟨fun hb => ?_, fun hb => ?_⟩, fun s l kind tag result hb => ?_,
    fun s b hm l => ?_, State.awards_iff, fun s l => ⟨rfl, rfl, rfl⟩⟩
  case refine_1 =>
    rintro s last hr hd rfl
    refine ⟨fun hb => ?_, fun hb hm => ?_, fun hb hm hc => ?_, fun hb hm hc => ?_, fun hb hm hno => ?_,
      fun l hb hm hw ho hturn => ?_⟩
    case refine_1 =>
      rw [State.arbitrate_ports hr hd hb]
      exact ⟨fun h1 h2 => by rw [h1, h2]; rfl, fun h1 h2 => by rw [h1, h2]; rfl, fun h1 h2 => by rw [h1, h2]; rfl,
        fun h1 h2 => by rw [h1, h2]; rfl⟩
    case refine_2 => rw [State.arbitrate_withStep hr hd hb, State.chooseWithStep, hm]
    case refine_3 =>
      rw [State.arbitrate_withStep hr hd hb, State.chooseWithStep_portsFirst hm, if_pos hc]
    case refine_4 =>
      rw [State.arbitrate_withStep hr hd hb, State.chooseWithStep_portsFirst hm, if_neg (by omega)]
      exact ⟨fun h1 h2 => by rw [h1, h2]; rfl, fun h1 h2 => by rw [h1, h2]; rfl, fun h1 h2 => by rw [h1, h2]; rfl,
        fun h1 h2 => by rw [h1, h2]; rfl⟩
    case refine_5 =>
      have hnone (l : Link) : (s.portWaiting l && s.owed.contains l) = false := by
        cases hw : s.portWaiting l with
        | false => rfl
        | true => simpa using hno l hw
      rw [State.arbitrate_withStep hr hd hb, State.chooseWithStep_exclusive hm, hnone, hnone]
      rfl
    case refine_6 =>
      have hturn' : choosePort s.lastServed (s.portWaiting .host && s.owed.contains .host)
          (s.portWaiting .floor && s.owed.contains .floor) = .port l := by
        refine choosePort_of_turn ?_
        cases l with
        | host =>
          refine ⟨by simp [hw, ho], ?_⟩
          rcases hturn with h | h | h
          · exact .inl (by simpa [otherLink] using fun _ => h)
          · exact .inl (by simp [show s.portWaiting .floor = false from h])
          · exact .inr h
        | floor =>
          refine ⟨by simp [hw, ho], ?_⟩
          rcases hturn with h | h | h
          · exact .inl (by simpa [otherLink] using fun _ => h)
          · exact .inl (by simp [show s.portWaiting .host = false from h])
          · exact .inr h
      rw [State.arbitrate_withStep hr hd hb, State.chooseWithStep_exclusive hm, hturn']
      rfl
  case refine_2 => simp only [State.grantPort, State.stepWaiting_iff]
  case refine_3 => rw [State.freeStore, if_neg fun h => State.stepWaiting_iff.1 h hb]
  case refine_4 => rw [State.freeStore, if_pos (State.stepWaiting_iff.2 hb)]
  case refine_5 =>
    have hrun : (s.replies l kind tag result).runningBatch = none := by cases l <;> exact hb
    rw [State.ends, State.freeStore, if_neg fun h => State.stepWaiting_iff.1 h hrun]
  case refine_6 => exact s.mem_completeBatch_owed b hm l

end Sys2Proof.Machine

/-! PROOFS. Section 4.2, the order of checks of an item request and of NEST. -/

namespace Sys2Proof.Machine

-- One proof after another: elaborated side by side, so many short ones outgrow the memory a compile may take.
set_option Elab.async false

open Sys2Proof

/-! Claims and the reload of the link's own (R150, R151) -/

section Claims

variable {s : State} {l : Link} {it : Item}

theorem State.otherClaim_eq (s : State) (l : Link) (it : Item) :
    s.otherClaim l it =
      ((s.claimOf it).map (·.link)).bind fun k => if k = l then none else some k := by
  unfold State.otherClaim
  cases s.claimOf it <;> rfl

/-- A reload keeps every claim's item and link. -/
theorem State.otherClaim_reloadClaim (s : State) (l k : Link) (it x : Item) :
    (s.reloadClaim l it).otherClaim k x = s.otherClaim k x := by
  have hfind : ((s.reloadClaim l it).claimOf x).map (·.link) = (s.claimOf x).map (·.link) := by
    have hitem : ((fun c : Claim => decide (c.item = x)) ∘
        fun c : Claim => if c.item = it ∧ c.link = l then { c with seconds := s.claimLimit l } else c) =
        fun c => decide (c.item = x) := by
      funext c
      simp only [Function.comp_apply]
      split <;> rfl
    have hlink : ((fun c : Claim => c.link) ∘
        fun c : Claim => if c.item = it ∧ c.link = l then { c with seconds := s.claimLimit l } else c) =
        fun c => c.link := by
      funext c
      simp only [Function.comp_apply]
      split <;> rfl
    simp only [State.claimOf, State.reloadClaim, List.find?_map, Option.map_map, hitem, hlink]
  rw [State.otherClaim_eq, State.otherClaim_eq, hfind]

theorem State.otherClaim_of_other {c : Claim} (hc : s.claimOf it = some c) (hl : c.link ≠ l) :
    s.otherClaim l it = some c.link := by
  simp [State.otherClaim, hc, hl]

theorem State.checkClaim_claimed {next : State → Checked} {k : Link} (h : s.otherClaim l it = some k) :
    s.checkClaim l it next = .refused s [stClaimed, linkCode k] := by
  simp [State.checkClaim, h]

theorem State.checkClaim_free {next : State → Checked} (h : s.otherClaim l it = none) :
    s.checkClaim l it next = next (s.reloadClaim l it) := by
  simp [State.checkClaim, h]

@[simp] theorem State.reloadClaim_stampOf (s : State) (l : Link) (it x : Item) :
    (s.reloadClaim l it).stampOf x = s.stampOf x := by cases x <;> rfl

theorem State.checkStamp_stale {stamp : Nat} (h0 : stamp ≠ 0) (hne : stamp ≠ s.stampOf it) :
    s.checkStamp it stamp = .refused s (stStaleStamp :: u16 (s.stampOf it)) := if_pos ⟨h0, hne⟩

theorem State.checkStamp_quiesced {stamp : Nat} (hs : stamp = 0 ∨ stamp = s.stampOf it) (hq : s.quiesce ≠ .active) :
    s.checkStamp it stamp = .refused s [stQuiesced] := by
  rw [State.checkStamp, if_neg (fun h => hs.elim h.1 h.2), if_pos hq]

theorem State.checkStamp_passed {stamp : Nat} (hs : stamp = 0 ∨ stamp = s.stampOf it) (hq : s.quiesce = .active) :
    s.checkStamp it stamp = .passed s it := by
  rw [State.checkStamp, if_neg (fun h => hs.elim h.1 h.2), if_neg (fun h => h hq)]

end Claims

/-! Item requests -/

section ItemRequest

variable {s : State} {l : Link} {tag : Byte} {c : Instr} {label : Label} {stamp : Nat} {it : Item}

/-- The rows that take one item through the whole order of checks are item requests (R68). -/
theorem exec_itemRequest (hi : itemOperands c = some (label, stamp)) (hr : requestOf c = some (l, tag)) :
    ∃ f g, ∀ s, exec c s = serve l c (itemRequest l label stamp f g) s := by
  cases c
  all_goals first
    | exact absurd hi (Option.some_ne_none _).symm
    | simp only [itemOperands, requestOf, Option.some.injEq, Prod.mk.injEq] at hi hr
      obtain ⟨rfl, rfl⟩ := hi
      obtain ⟨rfl, rfl⟩ := hr
      exact ⟨_, _, fun _ => rfl⟩

/-- A request refused in steps 3 to 7 reaches no item's owner. -/
theorem exec_item_refused {u : State} {reply : List Byte} (hi : itemOperands c = some (label, stamp))
    (hreq : requestOf c = some (l, tag)) (hg : s.grants l c = true)
    (hcheck : (s.granted l c).checkItem l label stamp = .refused u reply) :
    exec c s = .next (u.ends l (kindCode c) tag reply) := by
  obtain ⟨f, g, hexec⟩ := exec_itemRequest hi hreq
  rw [hexec, serve_granted hreq hg, itemRequest, hcheck]
  rfl

theorem State.checkItem_found {g : State} (hf : g.find label = some it) (ht : g.inTransit it = false) :
    g.checkItem l label stamp = g.checkClaim l it fun u => u.checkStamp it stamp := by
  simp [State.checkItem, hf, ht]

/-- NEST's checks of an item and a target that exist and are at rest (R94). -/
theorem State.checkNest_found {g : State} {target : Label} {ta : Item} (hf : g.find label = some it)
    (hft : g.find target = some ta) (ht : g.inTransit it = false) (htt : g.inTransit ta = false) :
    g.checkNest l label target stamp =
      g.checkClaim l it fun u => u.checkClaim l ta fun v => v.checkStamp it stamp := by
  simp [State.checkNest, hf, hft, ht, htt, State.checkNestTarget]

theorem exec_nest_refused {target : Label} {expected : Option Half} {u : State} {reply : List Byte}
    (hg : s.grants l (.nest l tag label target expected) = true)
    (hcheck : (s.granted l (.nest l tag label target expected)).checkNest l label target (stampOperand expected) =
      .refused u reply) :
    exec (.nest l tag label target expected) s = .next (u.ends l 0x14 tag reply) := by
  refine (serve_granted (own := ownNest l label target expected) rfl hg).trans ?_
  rw [ownNest, hcheck]
  rfl

end ItemRequest

/-- Settles O36: each check refuses with its reply, in the order `checkItem` and `checkNest` make them. -/
theorem orderOfChecks : Obligations.OrderOfChecks := by
  refine ⟨fun s l c tag label stamp hreq hi hg => ⟨fun hf => ?_, fun it hf => ⟨fun ht => ?_, fun k ht hk hl => ?_,
    fun ht hc h0 hne => ?_, fun ht hc hs hq => ?_⟩⟩, fun s l i it => ⟨?_, rfl, rfl⟩, ?_⟩
  case refine_1 =>
    refine exec_item_refused hi hreq hg ?_
    simp [State.checkItem, hf, stNotFound]
  case refine_2 =>
    refine exec_item_refused hi hreq hg ?_
    simp [State.checkItem, hf, ht, stBusy]
  case refine_3 =>
    refine exec_item_refused hi hreq hg ?_
    rw [State.checkItem_found (by simpa using hf) (by simpa using ht)]
    exact State.checkClaim_claimed (State.otherClaim_of_other (by simpa using hk) hl)
  case refine_4 =>
    refine exec_item_refused hi hreq hg ?_
    rw [State.checkItem_found (by simpa using hf) (by simpa using ht), State.checkClaim_free (by simpa using hc),
      State.checkStamp_stale h0 (by simpa using hne)]
    simp [State.stepEight, stStaleStamp]
  case refine_5 =>
    refine exec_item_refused hi hreq hg ?_
    rw [State.checkItem_found (by simpa using hf) (by simpa using ht), State.checkClaim_free (by simpa using hc),
      State.checkStamp_quiesced (by simpa using hs) (by exact (State.granted_quiesce s l c).symm ▸ hq)]
    rfl
  case refine_6 => cases l <;> rfl
  case refine_7 =>
    rintro s l tag label target stamp i rfl hg
    refine ⟨fun hf => exec_nest_refused hg ?_, ?_⟩
    · rcases hf with hf | hf
      · simp [State.checkNest, hf, stNotFound]
      · cases hl : s.find label <;> simp [State.checkNest, hf, hl, stNotFound]
    · rintro it ta g hf hft rfl
      refine ⟨fun ht => exec_nest_refused hg ?_, fun k ht htt hk hl => exec_nest_refused hg ?_,
        fun k ht htt hc hk hl => exec_nest_refused hg ?_, fun ht htt hc hct => ⟨fun h0 hne => exec_nest_refused hg ?_,
        fun hs hq => exec_nest_refused hg ?_⟩⟩
      case refine_1 =>
        have hbusy : (s.inTransit it || s.inTransit ta) = true := by simpa using ht
        simp [State.checkNest, hf, hft, hbusy, stBusy]
      case refine_2 =>
        rw [State.checkNest_found (by simpa using hf) (by simpa using hft) (by simpa using ht) (by simpa using htt)]
        exact State.checkClaim_claimed (State.otherClaim_of_other (by simpa using hk) hl)
      case refine_3 =>
        rw [State.checkNest_found (by simpa using hf) (by simpa using hft) (by simpa using ht) (by simpa using htt),
          State.checkClaim_free (by simpa using hc)]
        refine State.checkClaim_claimed ?_
        rw [State.otherClaim_reloadClaim, State.granted_otherClaim]
        exact State.otherClaim_of_other hk hl
      case refine_4 =>
        rw [State.checkNest_found (by simpa using hf) (by simpa using hft) (by simpa using ht) (by simpa using htt),
          State.checkClaim_free (by simpa using hc),
          State.checkClaim_free (by rw [State.otherClaim_reloadClaim, State.granted_otherClaim]; exact hct),
          State.checkStamp_stale h0 (by simpa using hne)]
        simp [State.stepEight, stStaleStamp]
      case refine_5 =>
        rw [State.checkNest_found (by simpa using hf) (by simpa using hft) (by simpa using ht) (by simpa using htt),
          State.checkClaim_free (by simpa using hc),
          State.checkClaim_free (by rw [State.otherClaim_reloadClaim, State.granted_otherClaim]; exact hct),
          State.checkStamp_quiesced (by simpa using hs) (by exact (State.granted_quiesce s l _).symm ▸ hq)]
        rfl

end Sys2Proof.Machine

/-! PROOFS. The Zone Map (4.3) and the entry tests (4.4). -/

namespace Sys2Proof.Machine

-- One proof after another: elaborated side by side, so many short ones outgrow the memory a compile may take.
set_option Elab.async false

open Sys2Proof

/-! The Zone Map (R72) -/

/-- An active zone whose window contains a location. -/
def State.holdsLoc (s : State) (loc m : Nat) : Prop :=
  (s.zone m).cfg.active = true ∧ (s.zone m).cfg.base ≤ loc ∧ loc < (s.zone m).cfg.base + 2 ^ (s.zone m).cfg.k

/-- Of two zones the first has the smaller window, or on a tie the lower number. -/
def State.before (s : State) (z m : Nat) : Prop :=
  (s.zone z).cfg.k < (s.zone m).cfg.k ∨ ((s.zone z).cfg.k = (s.zone m).cfg.k ∧ z ≤ m)

/-- The best zone for a location among those below `n`. -/
def State.bestBelow (s : State) (loc n : Nat) : Option Nat → Prop
  | none => ∀ m < n, ¬s.holdsLoc loc m
  | some z => z < n ∧ s.holdsLoc loc z ∧ ∀ m < n, s.holdsLoc loc m → s.before z m

section Map

variable {s : State} {loc : Nat}

theorem State.holdsLoc_iff (m : Nat) :
    s.holdsLoc loc m ↔ ((s.zone m).cfg.active && windowContains (s.zone m).cfg.base (s.zone m).cfg.k loc) = true := by
  simp [State.holdsLoc, windowContains]

theorem mapStep_passed {best : Option Nat} {n : Nat} (h : ¬s.holdsLoc loc n) : mapStep s loc best n = best :=
  if_neg (fun hc => h ((State.holdsLoc_iff n).2 hc))

theorem mapStep_first {n : Nat} (h : s.holdsLoc loc n) : mapStep s loc none n = some n :=
  if_pos ((State.holdsLoc_iff n).1 h)

theorem mapStep_better {n b : Nat} (h : s.holdsLoc loc n) :
    mapStep s loc (some b) n = if (s.zone n).cfg.k < (s.zone b).cfg.k then some n else some b :=
  if_pos ((State.holdsLoc_iff n).1 h)

/-- Looking at one more zone keeps the best one. -/
theorem State.bestBelow_step {best : Option Nat} {n : Nat} (h : s.bestBelow loc n best) :
    s.bestBelow loc (n + 1) (mapStep s loc best n) := by
  by_cases hn : s.holdsLoc loc n
  case neg =>
    rw [mapStep_passed hn]
    cases best with
    | none => exact fun m hm hmh => (Nat.lt_succ_iff_lt_or_eq.1 hm).elim (fun hm => h m hm hmh) fun hm => hn (hm ▸ hmh)
    | some b =>
      obtain ⟨hb, hbh, hall⟩ := h
      exact ⟨by omega, hbh, fun m hm hmh =>
        (Nat.lt_succ_iff_lt_or_eq.1 hm).elim (fun hm => hall m hm hmh) fun hm => absurd (hm ▸ hmh) hn⟩
  case pos =>
    cases best with
    | none =>
      rw [mapStep_first hn]
      exact ⟨by omega, hn, fun m hm hmh =>
        (Nat.lt_succ_iff_lt_or_eq.1 hm).elim (fun hm => absurd hmh (h m hm)) fun hm => .inr ⟨by rw [hm], by omega⟩⟩
    | some b =>
      obtain ⟨hb, hbh, hall⟩ := h
      rw [mapStep_better hn]
      split
      · next hk =>
        refine ⟨by omega, hn, fun m hm hmh => ?_⟩
        rcases Nat.lt_succ_iff_lt_or_eq.1 hm with hm | hm
        · rcases hall m hm hmh with h | ⟨h, -⟩
          · exact .inl (by omega)
          · exact .inl (by omega)
        · exact .inr ⟨by rw [hm], by omega⟩
      · next hk =>
        refine ⟨by omega, hbh, fun m hm hmh => ?_⟩
        rcases Nat.lt_succ_iff_lt_or_eq.1 hm with hm | hm
        · exact hall m hm hmh
        · subst hm
          rcases Nat.lt_or_eq_of_le (Nat.le_of_not_lt hk) with h | h
          · exact .inl h
          · exact .inr ⟨h, by omega⟩

theorem State.bestBelow_foldl (s : State) (loc : Nat) : ∀ n : Nat,
    s.bestBelow loc n ((List.range n).foldl (mapStep s loc) none)
  | 0 => fun m hm => absurd hm (by omega)
  | n + 1 => by
    rw [List.range_succ, List.foldl_append]
    exact State.bestBelow_step (s.bestBelow_foldl loc n)

/-- The zone a location maps to is the best of all. -/
theorem State.mapLoc_best (s : State) (loc : Nat) : s.bestBelow loc 64 (s.mapLoc loc) := s.bestBelow_foldl loc 64

end Map

/-! The entry tests (R74, R75) -/

section Entry

variable {s : State} {l : Link} {label : Label} {loc z : Nat} {life : Life} {held arrival : Bool}

theorem gateBars_iff : gateBars life held = true ↔ life = .expired ∨ life = .spent ∨ held = true := by
  simp [gateBars, or_assoc]

theorem gatedReason_eq (life : Life) :
    gatedReason life = if life = .spent then 1 else if life = .expired then 0 else 2 := by
  cases life <;> rfl

theorem State.enterCarrier_mapped (hm : s.mapLoc loc = some z) :
    s.enterCarrier l label loc life held arrival = s.enterZone l label loc z life held arrival := by
  simp [State.enterCarrier, hm]

/-- A zone whose own conditions pass leaves the arrival to the watch (R75). -/
theorem State.enterZone_passes (he : (s.zone z).evacuating = false)
    (hg : (s.zone z).cfg.gated = false ∨ (life ≠ .expired ∧ life ≠ .spent ∧ held = false))
    (ho : (s.zone z).cfg.kind ≠ .oven ∨ life ≠ .spent) :
    s.enterZone l label loc z life held arrival = s.enterWatched l label loc z arrival := by
  have hgate : ((s.zone z).cfg.gated && gateBars life held) = false := by
    rcases hg with h | ⟨h1, h2, h3⟩
    · simp [h]
    · simp [gateBars, h1, h2, h3]
  have hoven : ovenBars (s.zone z).cfg.kind life = false := by
    rcases ho with h | h <;> simp [ovenBars, h]
  simp [State.enterZone, he, hgate, hoven]

/-- No match: the arrival is admitted and nothing changes (R164). -/
theorem State.enterWatched_unmatched (h : arrival = false ∨ s.watchMatches (linkSource l) loc = false) :
    s.enterWatched l label loc z arrival = .admitted s z := by
  cases ha : arrival with
  | false => rfl
  | true =>
    have hw : s.watchMatches (linkSource l) loc = false := h.resolve_left (by simp [ha])
    simp [State.enterWatched, State.testArrival, hw]

/-- A match is taken, and refuses the arrival under the block option (R165). -/
theorem State.enterWatched_matched (h : s.watchMatches (linkSource l) loc = true) :
    s.enterWatched l label loc z true =
      if s.watch.block then .refused (s.takeMatch (linkSource l) label loc z true) stWatchBlocked []
      else .admitted (s.takeMatch (linkSource l) label loc z false) z := by
  cases hb : s.watch.block <;> simp [State.enterWatched, State.testArrival, h, hb]

end Entry

/-- Settles O37: the map is its fold's invariant `bestBelow`, and the tests follow `enterZone` condition by condition. -/
theorem entryTests : Obligations.EntryTests := by
  refine ⟨fun s loc z h => ?_, fun s loc h m hm ha hc => ?_, fun s l label loc life held arrival h => ?_,
    fun s l label loc z life held arrival hm => ⟨fun he => ?_, fun he hg hl => ?_, fun he hg hk hl => ?_,
      fun he hg ho => ⟨fun hw => ?_, fun ha hw hb => ?_, fun ha hw hb => ?_⟩⟩⟩
  case refine_1 =>
    have hbest := s.mapLoc_best loc
    rw [h] at hbest
    obtain ⟨hz, ⟨ha, hlow, hhigh⟩, hall⟩ := hbest
    exact ⟨hz, ha, hlow, hhigh, fun m hm hma h1 h2 => hall m hm ⟨hma, h1, h2⟩⟩
  case refine_2 =>
    have hbest := s.mapLoc_best loc
    rw [h] at hbest
    exact hbest m hm ⟨ha, hc⟩
  case refine_3 => simp [State.enterCarrier, h, State.unmappedFault, stUnmapped]
  case refine_4 =>
    rw [State.enterCarrier_mapped hm]
    exact if_pos he
  case refine_5 =>
    rw [State.enterCarrier_mapped hm, State.enterZone]
    simp [he, hg, gateBars_iff.2 hl, gatedReason_eq, stGated]
  case refine_6 =>
    have hoven : ovenBars .oven .spent = true := rfl
    rw [State.enterCarrier_mapped hm, State.enterZone]
    simp [he, hg, hk, hl, hoven, gatedReason_eq, stGated]
  case refine_7 => rw [State.enterCarrier_mapped hm, State.enterZone_passes he hg ho, State.enterWatched_unmatched hw]
  case refine_8 =>
    rw [State.enterCarrier_mapped hm, State.enterZone_passes he hg ho, ha, State.enterWatched_matched hw, hb]
    rfl
  case refine_9 =>
    rw [State.enterCarrier_mapped hm, State.enterZone_passes he hg ho, ha, State.enterWatched_matched hw, hb]
    rfl

end Sys2Proof.Machine

/-! PROOFS. ENROL of a carrier (4.5): the record formed, its zone, its alerts, and the refusals of R77. -/

namespace Sys2Proof.Machine

-- One proof after another: elaborated side by side, so many short ones outgrow the memory a compile may take.
set_option Elab.async false

open Sys2Proof

/-! Queues that agree -/

theorem State.sameQueue.raiseAll {ks : List AlertKind} {subj : Subject} : ∀ {s t : State}, s.sameQueue t →
    (s.raiseAll ks subj).sameQueue (t.raiseAll ks subj) := by
  induction ks with
  | nil => exact fun h => h
  | cons k ks ih => exact fun h => ih (h.raise k subj none)

/-- A settle raises its alerts on the queue it finds. -/
theorem State.sameQueue_settle {s : State} {slot : Nat} {c : Carrier} (h : s.carrier slot = some c) :
    (s.raiseAll (s.settled c).2 (s.itemSubject (.carrier slot))).sameQueue (s.settle slot).1 := by
  simp only [State.settle, h]
  refine State.sameQueue.raiseAll ⟨?_, ?_, ?_⟩ <;> simp

theorem State.settled_congr_values {s t : State} (c : Carrier) (h1 : t.classValues c.cls = s.classValues c.cls)
    (h2 : t.integrals c.zone = s.integrals c.zone) (h3 : t.clock = s.clock) (h4 : t.minuteCount = s.minuteCount) :
    t.settled c = s.settled c := by
  simp only [State.settled, h1, h2, h3, h4]

theorem State.classValues_of_values {s : State} {n : Nat} {v : ClassValues} (h : (s.cls n).values = some v) :
    s.classValues n = v := by
  simp [State.classValues, h]

/-- A defined class stands in the table. -/
theorem State.lt_of_values {s : State} {n : Nat} {v : ClassValues} (h : (s.cls n).values = some v) :
    n < s.classes.length := by
  refine Nat.lt_of_not_le fun hn => ?_
  rw [State.cls, List.getD_eq_default _ _ hn] at h
  exact absurd h (Option.some_ne_none v).symm

theorem State.cls_setCls (s : State) (n m : Nat) (c : ClassRec) :
    (s.setCls n c).cls m = if m = n ∧ n < s.classes.length then c else s.cls m := by
  simp only [State.cls, State.setCls, List.getD_eq_getElem?_getD, List.getElem?_set]
  by_cases hmn : n = m
  · subst hmn
    by_cases hn : n < s.classes.length
    · simp [hn]
    · simp [hn]
  · simp [hmn, Ne.symm hmn]

/-! Forming a carrier (R2, R78) -/

/-- The state in which a new carrier meets its first settle. -/
def State.beforeFirstSettle (s : State) (slot : Nat) (label : Label) (c : Carrier) : State :=
  let s1 := (s.setCarrier slot c).addLabel label (.carrier slot)
  (s1.setCls c.cls { s1.cls c.cls with inUse := (s1.cls c.cls).inUse + 1 }).modZoneOpt c.zone (Zone.addResident c.life)

theorem State.formCarrier_eq (s : State) (slot : Nat) (label : Label) (c : Carrier) :
    s.formCarrier slot label c = ((s.beforeFirstSettle slot label c).settle slot).1.bakeRefusal slot false := rfl

section Form

variable {s : State} {slot : Nat} {label : Label} {c : Carrier} {v : ClassValues}

theorem State.beforeFirstSettle_eta (s : State) (slot : Nat) (label : Label) (c : Carrier) :
    s.beforeFirstSettle slot label c =
      { s with
        carriers := tabPut s.carriers slot c
        directory := s.directory ++ [(label, .carrier slot)]
        classes := s.classes.set c.cls { s.cls c.cls with inUse := (s.cls c.cls).inUse + 1 }
        zones := (s.beforeFirstSettle slot label c).zones } := by
  unfold State.beforeFirstSettle
  cases c.zone <;> rfl

theorem State.beforeFirstSettle_carrier (s : State) (slot m : Nat) (label : Label) (c : Carrier) :
    (s.beforeFirstSettle slot label c).carrier m = if m = slot then some c else s.carrier m := by
  rw [State.beforeFirstSettle_eta]
  by_cases hm : m = slot
  · rw [if_pos hm, hm]
    exact tabGet_put_same slot c _
  · rw [if_neg hm]
    exact tabGet_put_other slot m c hm _

theorem State.beforeFirstSettle_zone (s : State) (slot n : Nat) (label : Label) (c : Carrier) :
    (s.beforeFirstSettle slot label c).zone n =
      if c.zone = some n ∧ n < s.zones.length then (s.zone n).addResident c.life else s.zone n :=
  State.zone_modZoneOpt ..

theorem State.beforeFirstSettle_cls (hv : (s.cls c.cls).values = some v) (m : Nat) :
    (s.beforeFirstSettle slot label c).cls m =
      if m = c.cls then { s.cls c.cls with inUse := (s.cls c.cls).inUse + 1 } else s.cls m := by
  have hcls := s.cls_setCls c.cls m { s.cls c.cls with inUse := (s.cls c.cls).inUse + 1 }
  simp only [State.lt_of_values hv, and_true] at hcls
  rw [← hcls, State.beforeFirstSettle_eta]
  rfl

theorem State.beforeFirstSettle_settled (hv : (s.cls c.cls).values = some v) :
    (s.beforeFirstSettle slot label c).settled c = s.settled c := by
  refine State.settled_congr_values c ?_ ?_ (by rw [State.beforeFirstSettle_eta]) (by rw [State.beforeFirstSettle_eta])
  · rw [State.classValues, State.beforeFirstSettle_cls hv, if_pos rfl]
    rfl
  · unfold State.integrals
    cases c.zone with
    | none => rfl
    | some z =>
      simp only [State.beforeFirstSettle_zone]
      split <;> rfl

/-- What forming a carrier leaves: the settled record, its label, its class and zone, and the alerts of its first settle
with any BAKE_REFUSED (R2, R17, R45, R76, R78). -/
theorem State.formCarrier_spec (hv : (s.cls c.cls).values = some v) (hz : ∀ z, c.zone = some z → z < s.zones.length) :
    let u := s.formCarrier slot label c
    let k := (s.settled c).1
    u.carrier slot = some k ∧ (∀ m, m ≠ slot → u.carrier m = s.carrier m) ∧
      u.directory = s.directory ++ [(label, .carrier slot)] ∧
      (∀ m, u.cls m = if m = c.cls then { s.cls c.cls with inUse := (s.cls c.cls).inUse + 1 } else s.cls m) ∧
      (∀ z, c.zone = some z →
        u.zone z =
          { s.zone z with
            residents := (s.zone z).residents + 1
            counts := (s.zone z).counts.add k.life
            eList := insertKeyOpt slot k.eKey ((s.zone z).eList.filter fun e => e.slot ≠ slot)
            pList := insertKeyOpt slot k.pKey ((s.zone z).pList.filter fun e => e.slot ≠ slot) }) ∧
      (∀ n, c.zone ≠ some n → u.zone n = s.zone n) ∧
      (if k.mode = .bake ∧ v.bakeBudget ≤ k.bakeCount then
          (s.raiseAll (s.settled c).2 (.item (.carrier slot) (u.labelOf (.carrier slot)))).raise .bakeRefused
            (.item (.carrier slot) (u.labelOf (.carrier slot))) none
        else s.raiseAll (s.settled c).2 (.item (.carrier slot) (u.labelOf (.carrier slot)))).sameQueue u ∧
      u = { s with
            carriers := u.carriers, zones := u.zones, alerts := u.alerts, overflow := u.overflow
            directory := u.directory, classes := u.classes } := by
  obtain ⟨b, hb⟩ : ∃ b, b = s.beforeFirstSettle slot label c := ⟨_, rfl⟩
  obtain ⟨q, hq⟩ : ∃ q, q = (b.settle slot).1 := ⟨_, rfl⟩
  have hbc : b.carrier slot = some c := by rw [hb, State.beforeFirstSettle_carrier, if_pos rfl]
  have hbs : b.settled c = s.settled c := hb ▸ State.beforeFirstSettle_settled hv
  have hqc (m : Nat) : q.carrier m = if m = slot then some (s.settled c).1 else s.carrier m := by
    rw [hq, State.carrier_settle, hbc, Option.map_some, hbs, hb, State.beforeFirstSettle_carrier]
    by_cases hm : m = slot <;> simp [hm]
  have hqeta : q = { s with
      carriers := q.carriers, zones := q.zones, alerts := q.alerts, overflow := q.overflow
      directory := s.directory ++ [(label, .carrier slot)]
      classes := s.classes.set c.cls { s.cls c.cls with inUse := (s.cls c.cls).inUse + 1 } } := by
    rw [hq, State.settle_eta, hb, State.beforeFirstSettle_eta]
  have hqcls (m : Nat) : q.cls m = b.cls m := by rw [hq, State.settle_eta]; rfl
  have hbcls (m : Nat) :
      b.cls m = if m = c.cls then { s.cls c.cls with inUse := (s.cls c.cls).inUse + 1 } else s.cls m :=
    hb ▸ State.beforeFirstSettle_cls hv m
  have hqk : q.carrier slot = some (s.settled c).1 := by rw [hqc, if_pos rfl]
  obtain ⟨hkcls, -⟩ := s.settled_kept c
  have hvalues : q.classValues (s.settled c).1.cls = v := by
    refine State.classValues_of_values ?_
    rw [hqcls, hbcls, hkcls, if_pos rfl]
    exact hv
  have hform : s.formCarrier slot label c = if (s.settled c).1.mode = .bake ∧ v.bakeBudget ≤ (s.settled c).1.bakeCount then
      q.raise .bakeRefused (.item (.carrier slot) (q.labelOf (.carrier slot))) none else q := by
    rw [State.formCarrier_eq, ← hb, ← hq, State.bakeRefusal_eq false hqk, hvalues]
    simp
  have hueta : s.formCarrier slot label c = { q with
      alerts := (s.formCarrier slot label c).alerts, overflow := (s.formCarrier slot label c).overflow } := by
    rw [hform]
    split
    · exact q.raise_eta _ _ _
    · rfl
  obtain ⟨u, hu⟩ : ∃ u, u = s.formCarrier slot label c := ⟨_, rfl⟩
  rw [← hu] at hform hueta ⊢
  have hulabel : u.labelOf (.carrier slot) = q.labelOf (.carrier slot) := by rw [hueta]; rfl
  have hblabel : b.labelOf (.carrier slot) = q.labelOf (.carrier slot) := by
    rw [hq, State.settle_eta]
    rfl
  have hqueue : (s.raiseAll (s.settled c).2 (.item (.carrier slot) (q.labelOf (.carrier slot)))).sameQueue q := by
    have hsettle := State.sameQueue_settle hbc
    rw [← hq, hbs, State.itemSubject, hblabel] at hsettle
    have hsb : s.sameQueue b := by rw [hb, State.beforeFirstSettle_eta]; exact ⟨rfl, rfl, rfl⟩
    obtain ⟨h1, h2, h3⟩ := State.sameQueue.raiseAll (ks := (s.settled c).2)
      (subj := .item (.carrier slot) (q.labelOf (.carrier slot))) hsb
    obtain ⟨h4, h5, h6⟩ := hsettle
    exact ⟨h4.trans h1, h5.trans h2, h6.trans h3⟩
  refine ⟨?_, fun m hm => ?_, ?_, fun m => ?_, fun z hcz => ?_, fun n hn => ?_, ?_, ?_⟩
  case refine_1 => rw [hueta]; exact hqk
  case refine_2 =>
    have h := hqc m
    rw [if_neg hm] at h
    rw [hueta]
    exact h
  case refine_3 => rw [hueta, hqeta]
  case refine_4 =>
    rw [← hbcls, ← hqcls, hueta]
    rfl
  case refine_5 =>
    have hzone : u.zone z = q.zone z := by rw [hueta]; rfl
    have hlen : b.zones.length = s.zones.length := by
      rw [hb]
      exact State.zones_length_modZoneOpt ..
    rw [hzone, hq, b.zone_settle slot z c hbc, if_pos ⟨hcz, hlen ▸ hz z hcz⟩, hbs, hb, State.beforeFirstSettle_zone,
      if_pos ⟨hcz, hz z hcz⟩, Zone.add_settle]
  case refine_6 =>
    have hzone : u.zone n = q.zone n := by rw [hueta]; rfl
    rw [hzone, hq, b.zone_settle_other slot n c hbc hn, hb, State.beforeFirstSettle_zone, if_neg fun h => hn h.1]
  case refine_7 =>
    rw [hulabel, hform]
    split
    · exact hqueue.raise _ _ _
    · exact hqueue
  case refine_8 =>
    rw [hueta, hqeta]

end Form

end Sys2Proof.Machine

/-! PROOFS. What a grant, an entry and a reply leave alone; ENROL of a carrier and of a container (4.5, R92). -/

namespace Sys2Proof.Machine

-- One proof after another: elaborated side by side, so many short ones outgrow the memory a compile may take.
set_option Elab.async false

open Sys2Proof

/-! Replies at the end of a grant -/

section Ends

variable (s : State) (l : Link) (kind tag : Byte) (result : List Byte)

theorem State.ends_eta :
    s.ends l kind tag result =
      { s with
        hostLink := (s.ends l kind tag result).hostLink
        floorLink := (s.ends l kind tag result).floorLink
        portCount := (s.ends l kind tag result).portCount } := by
  unfold State.ends State.freeStore State.replies
  split <;> cases l <;> rfl

@[simp] theorem State.ends_carrier (n : Nat) : (s.ends l kind tag result).carrier n = s.carrier n := by
  rw [State.ends_eta]; rfl

@[simp] theorem State.ends_container (n : Nat) : (s.ends l kind tag result).container n = s.container n := by
  rw [State.ends_eta]; rfl

@[simp] theorem State.ends_zone (n : Nat) : (s.ends l kind tag result).zone n = s.zone n := by
  rw [State.ends_eta]; rfl

@[simp] theorem State.ends_cls (n : Nat) : (s.ends l kind tag result).cls n = s.cls n := by
  rw [State.ends_eta]; rfl

@[simp] theorem State.ends_labelOf (it : Item) : (s.ends l kind tag result).labelOf it = s.labelOf it := by
  rw [State.ends_eta]; rfl

@[simp] theorem State.ends_alerts : (s.ends l kind tag result).alerts = s.alerts := by rw [State.ends_eta]

@[simp] theorem State.ends_overflow : (s.ends l kind tag result).overflow = s.overflow := by rw [State.ends_eta]

@[simp] theorem State.ends_capture : (s.ends l kind tag result).capture = s.capture := by rw [State.ends_eta]

@[simp] theorem State.ends_moreFaults : (s.ends l kind tag result).moreFaults = s.moreFaults := by rw [State.ends_eta]

@[simp] theorem State.ends_watch : (s.ends l kind tag result).watch = s.watch := by rw [State.ends_eta]

@[simp] theorem State.ends_claims : (s.ends l kind tag result).claims = s.claims := by rw [State.ends_eta]

@[simp] theorem State.ends_zones : (s.ends l kind tag result).zones = s.zones := by rw [State.ends_eta]

@[simp] theorem State.ends_classes : (s.ends l kind tag result).classes = s.classes := by rw [State.ends_eta]

@[simp] theorem State.ends_nextBatch : (s.ends l kind tag result).nextBatch = s.nextBatch := by rw [State.ends_eta]

/-- The reply stands in its link's hand (R184). -/
theorem State.ends_link :
    (s.ends l kind tag result).link l =
      { s.link l with hand := some (.replying ((kind + 0x80) :: tag :: result)) } := by
  unfold State.ends State.freeStore State.replies
  split <;> cases l <;> rfl

/-- The other link is not met. -/
theorem State.ends_link_other : (s.ends l kind tag result).link (otherLink l) = s.link (otherLink l) := by
  unfold State.ends State.freeStore State.replies
  split <;> cases l <;> rfl

end Ends

/-! What a request that moves one carrier may write -/

theorem State.movesOnly.trans {s t u : State} (h1 : s.movesOnly t) (h2 : t.movesOnly u) : s.movesOnly u :=
  Eq.trans h2 (by rw [h1])

theorem State.movesOnly_granted (s : State) (l : Link) (i : Instr) : s.movesOnly (s.granted l i) := by
  cases l <;> rfl

theorem State.capturesOnly.movesOnly {s t : State} (h : s.capturesOnly t) : s.movesOnly t :=
  Eq.trans h (by rw [h])

theorem State.movesOnly_ends (s : State) (l : Link) (kind tag : Byte) (result : List Byte) :
    s.movesOnly (s.ends l kind tag result) := by
  unfold State.movesOnly
  rw [State.ends_eta]

theorem State.capturesOnly.granted_zone {s g : State} {l : Link} {i : Instr} (h : (s.granted l i).capturesOnly g)
    (n : Nat) : g.zone n = s.zone n := by
  rw [h]
  exact s.granted_zone l i n

/-! The first settle of a new carrier -/

section FirstSettle

variable {v : ClassValues} {cls x bakes e p : Nat} {packed : Bool} {parent : Option Parent} {zone : Option Nat}
  {mode : ResMode} {clock : Option Word} {minute : Word}

/-- A new carrier's first settle charges nothing and completes no bake: it evaluates the thresholds (R2, R13). -/
theorem settleRecord_new (hx : x ≤ 4294967295) (hv : 0 < v.bakeRequirement) :
    let r := settleRecord v e p clock minute (newCarrier cls x packed bakes parent zone mode e p clock minute)
    r.1.base = x ∧ r.1.progress = 0 ∧ r.1.carried = x ∧ r.1.closed = [] ∧ r.1.bakeCount = bakes ∧
      r.1.openSeg = { zone := zone, mode := mode, stamp := clock, entry := minute, credits := 0 } ∧
      r.1.life = evaluate v bakes x .fresh ∧ r.2 = lifeAlert (evaluate v bakes x .fresh) := by
  obtain ⟨c, hc⟩ : ∃ c, c = newCarrier cls x packed bakes parent zone mode e p clock minute := ⟨_, rfl⟩
  have hcharge : newExposure c (e - c.aE) (p - c.aP) = x ∧ newProgress c (p - c.aP) = 0 := by
    subst hc
    exact charge_anchored (m := newCarrier cls x packed bakes parent zone mode e p clock minute) hx (Nat.zero_le _)
  obtain ⟨hexposure, hprogress⟩ := hcharge
  have hunbaked : bakeReady v (charge e p c) = false := by
    rw [Bool.eq_false_iff, ne_eq, bakeReady_charge, hprogress]
    omega
  obtain ⟨hbase, hprog, hcarried, hclosed, hcount, hseg, hlife⟩ :=
    settleRecord_unbaked (clock := clock) (minute := minute) hunbaked
  have halerts := settleRecord_alerts v e p clock minute c
  have hbefore : lifeBefore v e p c = .fresh := by
    rw [lifeBefore, if_neg (by simp [hunbaked]), hc]
    rfl
  have hnorecovery : ¬(c.mode = .rest ∧ x = 0 ∧ 0 < c.base) := by
    rintro ⟨-, h0, hpos⟩
    rw [hc] at hpos
    exact absurd (h0 ▸ hpos : 0 < 0) (Nat.lt_irrefl 0)
  rw [hexposure] at hbase hseg hlife
  rw [hunbaked, hbase, hbefore, if_neg hnorecovery, if_neg Bool.false_ne_true] at halerts
  have hlife' : (settleRecord v e p clock minute c).1.life = evaluate v bakes x .fresh := by
    rw [hlife, hc]
    rfl
  rw [hlife'] at halerts
  rw [← hc]
  refine ⟨hbase, hprog.trans hprogress, hcarried.trans (by rw [hc]; rfl), hclosed.trans (by rw [hc]; rfl),
    hcount.trans (by rw [hc]; rfl), hseg.trans (by simp [hc, newCarrier]), hlife', halerts.trans ?_⟩
  cases evaluate v bakes x .fresh <;> rfl

end FirstSettle

theorem State.labelOf_append {s t : State} {label : Label} {it : Item} (ht : t.directory = s.directory ++ [(label, it)])
    (h : ∀ e ∈ s.directory, e.2 ≠ it) : t.labelOf it = label := by
  have hnone : s.directory.find? (fun e => decide (e.2 = it)) = none := by simpa using h
  simp [State.labelOf, ht, List.find?_append, hnone]

end Sys2Proof.Machine

/-! PROOFS. ENROL of a carrier (4.5) and of a container (R92). -/

namespace Sys2Proof.Machine

-- One proof after another: elaborated side by side, so many short ones outgrow the memory a compile may take.
set_option Elab.async false

open Sys2Proof

/-! What an entry under a grant leaves as the request found it -/

section Entered

variable {s g : State} {l : Link} {i : Instr}

theorem State.capturesOnly.granted_zones (h : (s.granted l i).capturesOnly g) : g.zones = s.zones := by
  rw [h, ← s.granted_zones l i]

theorem State.capturesOnly.granted_cls (h : (s.granted l i).capturesOnly g) (n : Nat) : g.cls n = s.cls n := by
  rw [h]
  exact s.granted_cls l i n

theorem State.capturesOnly.granted_integrals (h : (s.granted l i).capturesOnly g) (zone : Option Nat) :
    g.integrals zone = s.integrals zone := by
  unfold State.integrals
  cases zone <;> simp [h.granted_zone]

theorem State.capturesOnly.granted_modeIn (h : (s.granted l i).capturesOnly g) (zone : Option Nat) (packed : Bool) :
    g.modeIn zone packed = s.modeIn zone packed := by
  unfold State.modeIn
  cases zone <;> simp [h.granted_zone]

theorem State.capturesOnly.granted_carriers (h : (s.granted l i).capturesOnly g) : g.carriers = s.carriers := by
  rw [h, ← s.granted_carriers l i]

theorem State.capturesOnly.granted_directory (h : (s.granted l i).capturesOnly g) : g.directory = s.directory := by
  rw [h, ← s.granted_directory l i]

theorem State.capturesOnly.granted_clock (h : (s.granted l i).capturesOnly g) : g.clock = s.clock := by
  rw [h]
  cases l <;> rfl

theorem State.capturesOnly.granted_minuteCount (h : (s.granted l i).capturesOnly g) :
    g.minuteCount = s.minuteCount := by
  rw [h]
  cases l <;> rfl

theorem State.capturesOnly.granted_movesOnly (h : (s.granted l i).capturesOnly g) : s.movesOnly g :=
  (s.movesOnly_granted l i).trans h.movesOnly

end Entered

/-! ENROL of a carrier -/

section EnrolCarrier

variable {s g : State} {tag : Byte} {label : Label} {cls : Byte} {minutes : Word} {packed bakes : Byte}
  {loc : Option Half} {v : ClassValues} {slot : Nat} {zone : Option Nat} {i : Instr} {life : Life}

/-- The conditions of R77 up to the location, as the owner finds them under the grant. -/
theorem ownEnrolCarrier_eq (g : State) (label : Label) (cls : Byte) (minutes : Word) (packed bakes : Byte)
    (loc : Option Half) :
    ownEnrolCarrier .host label cls minutes packed bakes loc g =
      if g.find label ≠ none then (g, [stDuplicate])
      else if g.quiesce ≠ .active then (g, [stQuiesced])
      else if (g.cls cls.toNat).values = none then (g, [stUndefinedClass])
      else
        ((tabFree 4096 g.carriers).map fun slot =>
          enrolInSlot .host label cls.toNat (16 * minutes.toNat) (flagOf packed) bakes.toNat (locOperand loc) slot g).getD
            (g, [stFull]) := by
  have hfind : ((g.find label).isSome = true) = (g.find label ≠ none) := by
    rw [Option.isSome_iff_ne_none]
  unfold ownEnrolCarrier
  simp only [hfind, Config.carrierSlots, Config.creditsPerMinute]
  cases tabFree 4096 g.carriers <;> rfl

/-- The parent a location and its zone give. -/
def placeAt (loc : Option Half) (zone : Option Nat) : Option Parent :=
  match loc, zone with
  | some x, some z => some (.place z x.toNat)
  | _, _ => none

/-- An accepted ENROL forms the carrier in the state the entry left. -/
theorem enrolInSlot_accepted {u : State} (hv : u.classValues cls.toNat = v)
    (hlife : life = evaluate v bakes.toNat (16 * minutes.toNat) .fresh)
    (hloc : (loc = none ∧ zone = none ∧ g = u) ∨
      (∃ x z, loc = some x ∧ zone = some z ∧ u.enterCarrier .host label x.toNat life false true = .admitted g z)) :
    enrolInSlot .host label cls.toNat (16 * minutes.toNat) (flagOf packed) bakes.toNat (locOperand loc) slot u =
      enrolAt slot label cls.toNat (16 * minutes.toNat) (flagOf packed) bakes.toNat (placeAt loc zone) zone g := by
  rcases hloc with ⟨rfl, rfl, rfl⟩ | ⟨x, z, rfl, rfl, hentry⟩
  · rfl
  · have hfirst : u.firstLife cls.toNat (16 * minutes.toNat) bakes.toNat = life := by rw [State.firstLife, hv, hlife]
    simp only [enrolInSlot, locOperand, Option.map_some, hfirst, hentry]
    rfl

/-- An admitted carrier's zone stands in the table. -/
theorem State.lt_of_admitted {u : State} {l : Link} {x z : Nat} {held arrival : Bool}
    (h : u.enterCarrier l label x life held arrival = .admitted g z) : z < u.zones.length := by
  have hbest := u.mapLoc_best x
  rw [State.enterCarrier_zone h] at hbest
  obtain ⟨-, ⟨ha, -⟩, -⟩ := hbest
  exact State.lt_of_active ha

/-- The record of a new carrier after its first settle (R2, R14 to R16, R78). -/
theorem settleRecord_new_spec {e p x bakes cls : Nat} {packed : Bool} {parent : Option Parent} {mode : ResMode}
    {clock : Option Word} {minute : Word} (hx : x ≤ 4294967295) (hv : 0 < v.bakeRequirement)
    (hlife : life = evaluate v bakes x .fresh) :
    let r := settleRecord v e p clock minute (newCarrier cls x packed bakes parent zone mode e p clock minute)
    r.1.cls = cls ∧ r.1.packed = packed ∧ r.1.zone = zone ∧ r.1.mode = mode ∧ r.1.life = life ∧ r.1.parent = parent ∧
      r.1.base = x ∧ r.1.carried = x ∧ r.1.closed = [] ∧
      r.1.openSeg = { zone := zone, mode := mode, stamp := clock, entry := minute, credits := 0 } ∧
      (r.1.aE, r.1.aP) = (e, p) ∧ r.1.progress = 0 ∧ r.1.bakeCount = bakes ∧ r.1.hold = 0 ∧ r.1.stamp = 1 ∧
      r.1.inTransit = false ∧ r.1.enrolStamp = clock ∧
      (r.1.eligible = true ↔ 0 < v.ceiling ∧ x ≤ v.ceiling ∧ (life = .fresh ∨ life = .warned)) ∧
      r.1.eKey =
        (if mode ≠ .still ∧ v.limit ≠ 0 ∧ life = .fresh then some (e + (v.warnLevel - x))
        else if mode ≠ .still ∧ v.limit ≠ 0 ∧ life = .warned then some (e + (v.limit - x)) else none) ∧
      r.1.pKey =
        (if mode = .rest ∧ r.1.eligible = true ∧ 0 < x then some (p + x)
        else if mode = .bake ∧ life ≠ .spent ∧ bakes < v.bakeBudget then some (p + v.bakeRequirement) else none) ∧
      r.2 = lifeAlert life := by
  intro r
  obtain ⟨hbase, hprogress, hcarried, hclosed, hbakes, hseg, hl, halerts⟩ :=
    settleRecord_new (cls := cls) (e := e) (p := p) (bakes := bakes) (packed := packed) (parent := parent)
      (zone := zone) (mode := mode) (clock := clock) (minute := minute) hx hv
  rw [← hlife] at hl halerts
  have hkept := settleRecord_kept v e p clock minute
    (newCarrier cls x packed bakes parent zone mode e p clock minute)
  obtain ⟨hcls, hpacked, hparent, hzone, hmode, haE, haP, hhold, hstamp, htransit, henrol⟩ := hkept
  have heligible : r.1.eligible = true ↔ 0 < v.ceiling ∧ x ≤ v.ceiling ∧ (life = .fresh ∨ life = .warned) := by
    have h := eligibleNow_iff v r.1
    rw [hbase, hl] at h
    exact h
  refine ⟨hcls, hpacked, hzone, hmode, hl, hparent, hbase, hcarried, hclosed, hseg, Prod.ext haE haP, hprogress, hbakes,
    hhold, hstamp, htransit, henrol, heligible, ?_, ?_, halerts⟩
  · have h := eKeyOf_eq v r.1
    rw [hbase, hl, hmode, haE] at h
    exact h
  · have h := pKeyOf_eq v r.1
    rw [hbase, hl, hmode, haP, hprogress, hbakes] at h
    exact h

end EnrolCarrier

/-- Settles O38: an accepted ENROL is `formCarrier` of a new record in the state the entry left; the refusals are the
owner's branches in their order. -/
theorem carrierIsEnrolled : Obligations.CarrierIsEnrolled := by
  refine ⟨?_, ?_⟩
  case refine_1 =>
    rintro s g tag label cls minutes packed bakes loc v slot zone i mode life rfl hg hfind hwf hq hv hreq hfree hlife hloc
      hmode
    obtain ⟨u, hu⟩ : ∃ u, u = s.granted .host (.enrolCarrier .host tag label cls minutes packed bakes loc) := ⟨_, rfl⟩
    rw [← hu] at hloc
    have hucls (m : Nat) : u.cls m = s.cls m := hu ▸ s.granted_cls ..
    have huv : u.classValues cls.toNat = v := State.classValues_of_values (by rw [hucls]; exact hv)
    have hcaptures : (s.granted .host (.enrolCarrier .host tag label cls minutes packed bakes loc)).capturesOnly g := by
      rw [← hu]
      rcases hloc with ⟨-, -, rfl⟩ | ⟨x, z, -, -, hentry⟩
      · exact g.capturesOnly_refl
      · have honly := u.enterCarrier_only .host label x.toNat life false true
        rwa [hentry] at honly
    have hzlt (z : Nat) (hz : zone = some z) : z < g.zones.length := by
      rcases hloc with ⟨-, rfl, -⟩ | ⟨x, z', -, rfl, hentry⟩
      · exact nomatch hz
      · obtain rfl : z' = z := by simpa using hz
        have hlt := State.lt_of_admitted hentry
        rw [hcaptures.granted_zones]
        rwa [hu, State.granted_zones] at hlt
    have hgmode : g.modeIn zone (flagOf packed) = mode := by
      rw [hmode, hcaptures.granted_modeIn]
      simp [flagOf]
    have hmin : minutes.toNat ≤ 268435455 := by
      have hfields := State.grants_fieldsOk hg
      simp only [fieldsOk, Bool.and_eq_true, decide_eq_true_eq] at hfields
      omega
    obtain ⟨c, hc⟩ : ∃ c, c = newCarrier cls.toNat (16 * minutes.toNat) (flagOf packed) bakes.toNat
      (placeAt loc zone) zone mode (s.integrals zone).1 (s.integrals zone).2 s.clock s.minuteCount := ⟨_, rfl⟩
    obtain ⟨t, ht⟩ : ∃ t, t = g.formCarrier slot label c := ⟨_, rfl⟩
    have hown : ownEnrolCarrier .host label cls minutes packed bakes loc u = (t, t.enrolReply slot) := by
      rw [ownEnrolCarrier_eq, if_neg (by simp [hu, hfind]), if_neg (by simp [hu, hq]),
        if_neg (by simp [hucls, hv]), hu, State.granted_carriers, hfree, ← hu, Option.map_some, Option.getD_some,
        enrolInSlot_accepted huv hlife hloc, enrolAt, hgmode, hcaptures.granted_integrals, hcaptures.granted_clock,
          hcaptures.granted_minuteCount, ← hc, ← ht]
    have hccls : c.cls = cls.toNat := by rw [hc]; rfl
    have hczone : c.zone = zone := by rw [hc]; rfl
    have hgv : (g.cls c.cls).values = some v := by
      rw [hccls, hcaptures.granted_cls]
      exact hv
    obtain ⟨hcarrier, hothers, hdir, hcls, hzone, hzones, hqueue, heta⟩ :=
      State.formCarrier_spec (slot := slot) (label := label) hgv fun z hz => hzlt z (hczone ▸ hz)
    rw [← ht] at hcarrier hothers hdir hcls hzone hzones hqueue heta
    have hsettled : g.settled c = settleRecord v (s.integrals zone).1 (s.integrals zone).2 s.clock s.minuteCount c := by
      rw [State.settled, State.classValues_of_values hgv, hczone, hcaptures.granted_integrals,
        hcaptures.granted_clock, hcaptures.granted_minuteCount]
    have hrecord := settleRecord_new_spec (v := v) (life := life) (zone := zone) (e := (s.integrals zone).1)
      (p := (s.integrals zone).2) (cls := cls.toNat) (packed := flagOf packed) (parent := placeAt loc zone) (mode := mode)
      (clock := s.clock) (minute := s.minuteCount) (x := 16 * minutes.toNat) (bakes := bakes.toNat) (by omega) hreq hlife
    rw [← hc, ← hsettled] at hrecord
    obtain ⟨kcls, kpacked, kzone, kmode, klife, kparent, kbase, kcarried, kclosed, kseg, kanchor, kprogress, kbakes, khold,
      kstamp, ktransit, kenrol, keligible, keKey, kpKey, kalerts⟩ := hrecord
    obtain ⟨hnotslot, hlower⟩ := (tabFree_spec hwf hfree).2
    have hexec : exec (.enrolCarrier .host tag label cls minutes packed bakes loc) s =
        .next (t.ends .host 0x10 tag (t.enrolReply slot)) := by
      refine (serve_granted (own := ownEnrolCarrier .host label cls minutes packed bakes loc) rfl hg).trans ?_
      rw [← hu, hown]
      rfl
    refine ⟨_, (g.settled c).1, hexec, by rw [State.ends_carrier, hcarrier], hnotslot, hlower, kcls, kpacked, kzone, kmode,
      klife, ?_, kbase, kcarried, kclosed, kseg, kanchor, kprogress, kbakes, khold, kstamp, ktransit, kenrol, keligible,
      keKey, ?_, ?_, ?_, ?_, fun z hz => ?_, fun n hn => ?_, fun m hm => ?_, ?_, ?_, ?_, ?_, ?_, ?_, ?_, ?_, ?_⟩
    case refine_1 => exact kparent
    case refine_2 =>
      have hpos : 0 < 16 * minutes.toNat ↔ 0 < minutes.toNat := by omega
      simp only [kpKey, hpos]
    case refine_3 => rw [State.ends_eta, ← hcaptures.granted_directory]; exact hdir
    case refine_4 => rw [State.ends_cls, hcls, if_pos hccls.symm, hccls, hcaptures.granted_cls]
    case refine_5 =>
      intro m hm
      rw [State.ends_cls, hcls, if_neg fun h => hm (h.trans hccls), hcaptures.granted_cls]
    case refine_6 =>
      rw [State.ends_zone, hzone z (hczone.trans hz), hcaptures.granted_zone, klife]
    case refine_7 => rw [State.ends_zone, hzones n fun h => hn (hczone ▸ h), hcaptures.granted_zone]
    case refine_8 =>
      rw [State.ends_carrier, hothers m hm, State.carrier, hcaptures.granted_carriers]
      rfl
    case refine_9 =>
      intro he
      rw [State.ends_labelOf]
      exact State.labelOf_append hdir (hcaptures.granted_directory ▸ he)
    case refine_10 =>
      intro subj w hsubj hw
      rw [State.ends_labelOf] at hsubj
      have hraised : w = g.raiseAll (lifeAlert life) subj := by rw [hw]; cases life <;> rfl
      rw [← hsubj, kalerts, ← hraised, kmode, kbakes] at hqueue
      rw [State.ends_alerts, State.ends_overflow]
      refine ⟨fun hbake hspent => ?_, fun hleft => ?_⟩
      · rw [if_pos ⟨hbake, hspent⟩] at hqueue
        exact ⟨hqueue.1, hqueue.2.1⟩
      · rw [if_neg fun h => hleft.elim (fun h' => h' h.1) fun h' => absurd h.2 (Nat.not_le.2 h')] at hqueue
        exact ⟨hqueue.1, hqueue.2.1⟩
    case refine_11 => rw [State.ends_capture, heta]
    case refine_12 => rw [State.ends_moreFaults, heta]
    case refine_13 => rw [State.ends_watch, heta]
    case refine_14 => rw [State.ends_claims, heta, hcaptures]; rfl
    case refine_15 =>
      have hreply : t.enrolReply slot =
          [0x00] ++ u16 slot ++ [0x00, 0x01, lifeCode life] ++ orNone zone ++ [modeCode mode] := by
        simp only [State.enrolReply, hcarrier, kstamp, klife, kzone, kmode]
        simp [u16]
        rfl
      have hlink := State.ends_link t .host 0x10 tag (t.enrolReply slot)
      rw [hreply] at hlink ⊢
      exact congrArg LinkState.hand hlink
    case refine_16 =>
      have hlink := State.ends_link_other t .host 0x10 tag (t.enrolReply slot)
      refine Eq.trans hlink ?_
      rw [heta, hcaptures]
      rfl
    case refine_17 =>
      have hformed : State.movesOnly { s with directory := t.directory, classes := t.classes } t := by
        unfold State.movesOnly
        rw [heta, hcaptures.granted_movesOnly]
      rw [State.ends_directory, State.ends_classes]
      exact hformed.trans (t.movesOnly_ends ..)
  case refine_2 =>
    rintro s tag label cls minutes packed bakes loc i rfl hg
    obtain ⟨u, hu⟩ : ∃ u, u = s.granted .host (.enrolCarrier .host tag label cls minutes packed bakes loc) := ⟨_, rfl⟩
    rw [← hu]
    have hexec {w : State} {reply : List Byte}
        (h : ownEnrolCarrier .host label cls minutes packed bakes loc u = (w, reply)) :
        exec (.enrolCarrier .host tag label cls minutes packed bakes loc) s = .next (w.ends .host 0x10 tag reply) := by
      refine (serve_granted (own := ownEnrolCarrier .host label cls minutes packed bakes loc) rfl hg).trans ?_
      rw [← hu, h]
      rfl
    have hufind : u.find label = s.find label := by simp [hu]
    have huq : u.quiesce = s.quiesce := by simp [hu]
    have hucls : u.cls cls.toNat = s.cls cls.toNat := by simp [hu]
    have hucarriers : u.carriers = s.carriers := by simp [hu]
    refine ⟨fun hf => hexec ?_, fun hf hq => hexec ?_, fun hf hq hv => hexec ?_, fun hf hq hv hfull => hexec ?_,
      fun x v w st extra hloc hf hq hv hfree hrefused => hexec ?_⟩
    case refine_1 => rw [ownEnrolCarrier_eq, hufind, if_pos hf]; rfl
    case refine_2 => rw [ownEnrolCarrier_eq, hufind, if_neg (by simp [hf]), huq, if_pos hq]; rfl
    case refine_3 =>
      rw [ownEnrolCarrier_eq, hufind, if_neg (by simp [hf]), huq, if_neg (by simp [hq]), hucls, if_pos hv]
      rfl
    case refine_4 =>
      rw [ownEnrolCarrier_eq, hufind, if_neg (by simp [hf]), huq, if_neg (by simp [hq]), hucls, if_neg hv, hucarriers,
        hfull]
      rfl
    case refine_5 =>
      obtain ⟨slot, hslot⟩ := Option.ne_none_iff_exists'.1 hfree
      have huv : u.classValues cls.toNat = v := State.classValues_of_values (by rw [hucls]; exact hv)
      have hlife : u.firstLife cls.toNat (16 * minutes.toNat) bakes.toNat =
          evaluate v bakes.toNat (16 * minutes.toNat) .fresh := by rw [State.firstLife, huv]
      rw [ownEnrolCarrier_eq, hufind, if_neg (by simp [hf]), huq, if_neg (by simp [hq]), hucls, if_neg (by simp [hv]),
        hucarriers, hslot, Option.map_some, Option.getD_some, hloc]
      simp only [enrolInSlot, locOperand, Option.map_some, hlife, hrefused]

end Sys2Proof.Machine

/-! PROOFS. ENROL of a container (R88, R92). -/

namespace Sys2Proof.Machine

-- One proof after another: elaborated side by side, so many short ones outgrow the memory a compile may take.
set_option Elab.async false

open Sys2Proof

theorem State.capturesOnly.granted_containers {s g : State} {l : Link} {i : Instr}
    (h : (s.granted l i).capturesOnly g) : g.containers = s.containers := by
  rw [h, ← s.granted_containers l i]

theorem State.containsOnly.containsOnly_ends {s t : State} (h : s.containsOnly t) (l : Link) (kind tag : Byte)
    (result : List Byte) : s.containsOnly (t.ends l kind tag result) := by
  unfold State.containsOnly
  rw [State.ends_eta]
  unfold State.movesOnly
  rw [h]

section EnrolContainer

variable {s u g w : State} {l : Link} {tag : Byte} {label : Label} {packed : Byte} {loc : Option Half} {n z : Nat}
  {zone : Option Nat}

/-- An admitted container's zone is the one its location maps to. -/
theorem State.enterContainer_zone {x : Nat} (h : u.enterContainer l label x = .admitted g z) :
    u.mapLoc x = some z := by
  unfold State.enterContainer at h
  split at h
  · exact nomatch h
  · next z' hm =>
    rw [hm]
    split at h
    · exact nomatch h
    · unfold State.enterWatched at h
      split at h
      · dsimp only at h
        split at h
        · exact nomatch h
        · simp_all
      · simp_all

theorem State.lt_of_mapLoc {x : Nat} (h : s.mapLoc x = some z) : z < s.zones.length := by
  have hbest := s.mapLoc_best x
  rw [h] at hbest
  obtain ⟨-, ⟨ha, -⟩, -⟩ := hbest
  exact State.lt_of_active ha

/-- The conditions of R92 up to the location, as the owner finds them under the grant. -/
theorem ownEnrolContainer_eq (u : State) (l : Link) (label : Label) (packed : Byte) (loc : Option Half) :
    ownEnrolContainer l label packed loc u =
      if u.find label ≠ none then (u, [stDuplicate])
      else if u.quiesce ≠ .active then (u, [stQuiesced])
      else
        match tabFree 512 u.containers with
        | none => (u, [stFull])
        | some n =>
          match loc with
          | none => enrolContainerAt n label (flagOf packed) none none u
          | some x =>
            match u.enterContainer l label x.toNat with
            | .refused w st extra => (w, st :: extra)
            | .admitted w z => enrolContainerAt n label (flagOf packed) (some (.place z x.toNat)) (some z) w := by
  have hfind : ((u.find label).isSome = true) = (u.find label ≠ none) := by
    rw [Option.isSome_iff_ne_none]
  unfold ownEnrolContainer
  simp only [hfind, Config.containerNumbers]
  cases loc <;> rfl

/-- An accepted ENROL of a container forms it in the state the entry left. -/
theorem ownEnrolContainer_accepted (hfind : u.find label = none) (hq : u.quiesce = .active)
    (hfree : tabFree 512 u.containers = some n)
    (hloc : (loc = none ∧ zone = none ∧ g = u) ∨
      (∃ x z, loc = some x ∧ zone = some z ∧ u.enterContainer l label x.toNat = .admitted g z)) :
    ownEnrolContainer l label packed loc u =
      enrolContainerAt n label (flagOf packed) (placeAt loc zone) zone g := by
  rw [ownEnrolContainer_eq, if_neg (by simp [hfind]), if_neg (by simp [hq]), hfree]
  rcases hloc with ⟨rfl, rfl, rfl⟩ | ⟨x, z, rfl, rfl, hentry⟩
  · rfl
  · simp only [hentry]
    rfl

/-- Where a container's location is mapped, only an evacuation and the watch stand against it (R92, R164). -/
theorem State.enterContainer_mapped {x : Nat} (hm : u.mapLoc x = some z) :
    u.enterContainer l label x =
      if (u.zone z).evacuating then .refused u stBusy [] else u.enterWatched l label x z true := by
  rw [State.enterContainer, hm]

/-- What forming a container writes (R88, R92). -/
theorem enrolContainerAt_eta (n : Nat) (label : Label) (packed : Bool) (parent : Option Parent) (zone : Option Nat)
    (g : State) :
    (enrolContainerAt n label packed parent zone g).1 =
      { g with
        containers := tabPut g.containers n (newContainer packed parent zone)
        directory := g.directory ++ [(label, .container n)]
        zones := (enrolContainerAt n label packed parent zone g).1.zones } := by
  cases zone <;> rfl

theorem enrolContainerAt_zone (n m : Nat) (label : Label) (packed : Bool) (parent : Option Parent) (zone : Option Nat)
    (g : State) :
    (enrolContainerAt n label packed parent zone g).1.zone m =
      if zone = some m ∧ m < g.zones.length then { g.zone m with containers := (g.zone m).containers + 1 }
      else g.zone m :=
  State.zone_modZoneOpt ..

end EnrolContainer

/-- Settles O39: an accepted ENROL is `enrolContainerAt` in the state the entry left; the refusals are the owner's
branches in their order. -/
theorem containerIsEnrolled : Obligations.ContainerIsEnrolled := by
  refine ⟨?_, ?_⟩
  case refine_1 =>
    rintro s g tag label packed loc n zone i rfl hg hfind hwf hq hfree hloc
    obtain ⟨i, hi⟩ : ∃ i, i = Instr.enrolContainer .host tag label packed loc := ⟨_, rfl⟩
    rw [← hi] at hg hloc ⊢
    have hcaptures : (s.granted .host i).capturesOnly g := by
      rcases hloc with ⟨-, -, rfl⟩ | ⟨x, z, -, -, hentry⟩
      · exact State.capturesOnly_refl _
      · have honly := (s.granted .host i).enterContainer_only .host label x.toNat
        rwa [hentry] at honly
    have hzlt (z : Nat) (hz : zone = some z) : z < g.zones.length := by
      rcases hloc with ⟨-, rfl, -⟩ | ⟨x, z', -, rfl, hentry⟩
      · exact nomatch hz
      · obtain rfl : z' = z := by simpa using hz
        have hlt := State.lt_of_mapLoc (State.enterContainer_zone hentry)
        rwa [State.granted_zones, ← hcaptures.granted_zones] at hlt
    have hown := ownEnrolContainer_accepted (packed := packed) (by simpa using hfind) (by simpa using hq)
      (by simpa using hfree) hloc
    obtain ⟨t, ht⟩ : ∃ t, t = (enrolContainerAt n label (flagOf packed) (placeAt loc zone) zone g).1 := ⟨_, rfl⟩
    have heta := enrolContainerAt_eta n label (flagOf packed) (placeAt loc zone) zone g
    have hzone (m : Nat) := enrolContainerAt_zone n m label (flagOf packed) (placeAt loc zone) zone g
    rw [← ht] at heta
    simp only [← ht] at hzone
    have hexec : exec i s =
        .next (t.ends .host 0x10 tag ([0x00] ++ u16 n ++ u16 1 ++ orNone zone)) := by
      rw [hi] at hown hg ⊢
      refine (serve_granted (own := ownEnrolContainer .host label packed loc) rfl hg).trans ?_
      rw [hown, ht]
      rfl
    obtain ⟨hnotused, hlower⟩ := (tabFree_spec hwf hfree).2
    refine ⟨_, hexec, ?_, hnotused, hlower, fun m hm => ?_, ?_, fun z hz => ?_, fun m hm => ?_, ?_, ?_, ?_, ?_, ?_, ?_, ?_,
      ?_, ?_, ?_, ?_, ?_⟩
    case refine_1 =>
      rw [State.ends_container, heta]
      refine (tabGet_put_same n _ _).trans ?_
      cases loc <;> cases zone <;> rfl
    case refine_2 =>
      rw [State.ends_container, heta]
      refine (tabGet_put_other n m _ hm _).trans ?_
      rw [hcaptures.granted_containers]
      rfl
    case refine_3 => rw [State.ends_directory, heta, hcaptures.granted_directory]
    case refine_4 => rw [State.ends_zone, hzone, if_pos ⟨hz, hzlt z hz⟩, hcaptures.granted_zone]
    case refine_5 => rw [State.ends_zone, hzone, if_neg fun h => hm h.1, hcaptures.granted_zone]
    case refine_6 => rw [State.ends_eta, heta, hcaptures.granted_carriers]
    case refine_7 => rw [State.ends_capture, heta]
    case refine_8 => rw [State.ends_moreFaults, heta]
    case refine_9 => rw [State.ends_watch, heta]
    case refine_10 => rw [State.ends_alerts, heta]
    case refine_11 => rw [State.ends_overflow, heta]
    case refine_12 => rw [State.ends_claims, heta, hcaptures]; rfl
    case refine_13 => rw [State.ends_eta, heta, hcaptures]; rfl
    case refine_14 => rw [State.ends_nextBatch, heta, hcaptures]; rfl
    case refine_15 =>
      have hlink := State.ends_link t .host 0x10 tag ([0x00] ++ u16 n ++ u16 1 ++ orNone zone)
      refine (congrArg LinkState.hand hlink).trans ?_
      simp [u16]
    case refine_16 =>
      refine (State.ends_link_other t .host 0x10 tag _).trans ?_
      rw [heta, hcaptures]
      rfl
    case refine_17 =>
      have hformed : State.containsOnly { s with directory := t.directory } t := by
        unfold State.containsOnly State.movesOnly
        rw [heta, hcaptures.granted_movesOnly]
      rw [State.ends_directory]
      exact hformed.containsOnly_ends ..
  case refine_2 =>
    rintro s tag label packed loc i rfl hg
    obtain ⟨u, hu⟩ : ∃ u, u = s.granted .host (.enrolContainer .host tag label packed loc) := ⟨_, rfl⟩
    rw [← hu]
    have hexec {w : State} {reply : List Byte} (h : ownEnrolContainer .host label packed loc u = (w, reply)) :
        exec (.enrolContainer .host tag label packed loc) s = .next (w.ends .host 0x10 tag reply) := by
      refine (serve_granted (own := ownEnrolContainer .host label packed loc) rfl hg).trans ?_
      rw [← hu, h]
      rfl
    have hufind : u.find label = s.find label := by simp [hu]
    have huq : u.quiesce = s.quiesce := by simp [hu]
    have hucontainers : u.containers = s.containers := by simp [hu]
    have humap (x : Nat) : u.mapLoc x = s.mapLoc x := by simp [hu]
    have huzone (z : Nat) : u.zone z = s.zone z := by simp [hu]
    have huwatch : u.watch = s.watch := by rw [hu]; rfl
    have humatches (x : Nat) : u.watchMatches .hostLink x = s.watchMatches .hostLink x := by rw [hu]; rfl
    have hrefused {x : Half} {w : State} {st : Byte} {extra : List Byte} (hloc : loc = some x)
        (hf : s.find label = none) (hq : s.quiesce = .active) (hfree : tabFree 512 s.containers ≠ none)
        (h : u.enterContainer .host label x.toNat = .refused w st extra) :
        ownEnrolContainer .host label packed loc u = (w, st :: extra) := by
      obtain ⟨n, hn⟩ := Option.ne_none_iff_exists'.1 hfree
      rw [ownEnrolContainer_eq, hufind, if_neg (by simp [hf]), huq, if_neg (by simp [hq]), hucontainers, hn, hloc]
      simp only [h]
    refine ⟨fun hf => hexec ?_, fun hf hq => hexec ?_, fun hf hq hfull => hexec ?_,
      fun x hloc hf hq hfree => ⟨fun hm => hexec ?_, fun z hm => ⟨fun he => hexec ?_, fun he hw hb => hexec ?_,
        fun he hw hb => ?_, fun he hw => ?_⟩⟩⟩
    case refine_1 => rw [ownEnrolContainer_eq, hufind, if_pos hf]; rfl
    case refine_2 => rw [ownEnrolContainer_eq, hufind, if_neg (by simp [hf]), huq, if_pos hq]; rfl
    case refine_3 =>
      rw [ownEnrolContainer_eq, hufind, if_neg (by simp [hf]), huq, if_neg (by simp [hq]), hucontainers, hfull]
      rfl
    case refine_4 =>
      refine hrefused hloc hf hq hfree ?_
      rw [State.enterContainer, humap, hm]
      rfl
    case refine_5 =>
      refine hrefused hloc hf hq hfree ?_
      rw [State.enterContainer_mapped ((humap _).trans hm), huzone, he, if_pos rfl]
      rfl
    case refine_6 =>
      refine hrefused hloc hf hq hfree ?_
      rw [State.enterContainer_mapped ((humap _).trans hm), huzone, he, if_neg Bool.false_ne_true,
        State.enterWatched_matched (l := .host) ((humatches _).trans hw), huwatch, hb, if_pos rfl]
      rfl
    case refine_7 =>
      rw [State.enterContainer_mapped ((humap _).trans hm), huzone, he, if_neg Bool.false_ne_true,
        State.enterWatched_matched (l := .host) ((humatches _).trans hw), huwatch, hb, if_neg Bool.false_ne_true]
      rfl
    case refine_8 =>
      rw [State.enterContainer_mapped ((humap _).trans hm), huzone, he, if_neg Bool.false_ne_true,
        State.enterWatched_unmatched (.inr ((humatches _).trans hw))]

end Sys2Proof.Machine

/-! PROOFS. Capture and watch (chapter 9), raising and returning alerts (chapter 10). -/

namespace Sys2Proof.Machine

-- One proof after another: elaborated side by side, so many short ones outgrow the memory a compile may take.
set_option Elab.async false

open Sys2Proof

/-! Capture and watch -/

/-- Settles O50: each request is its owner's branch; a fault and a match are `raiseFault` and `takeMatch` unfolded. -/
theorem captureAndWatch : Obligations.CaptureAndWatch := by
  refine ⟨?_, fun s t tag ht hw => ⟨fun hm hmask => ?_, fun h => ?_⟩, fun s t tag ht hw => ?_, fun s tag ht => ?_,
    fun s t tag ht hc => ?_, fun s kind src label loc zone r hr => ⟨fun hc => ?_, fun hc => ?_⟩,
    fun s src label loc zone blocked => rfl⟩
  case refine_1 =>
    rintro s tag k mask base block t i rfl ht rfl
    refine (serve_taken (own := ownWatchSet base k mask block) rfl ht).trans ?_
    cases block <;> rfl
  case refine_2 =>
    have hnot : ¬((s.holding .host (.watchArm .host tag)).heldMatch = true ∨
        (s.holding .host (.watchArm .host tag)).watch.mask = 0) := fun h =>
      h.elim (fun h => Bool.false_ne_true (hm.symm.trans h)) hmask
    refine (serve_taken (own := ownWatchArm) rfl ht).trans ?_
    rw [ownWatchArm, if_neg hnot, hw]
    rfl
  case refine_3 =>
    refine (serve_taken (own := ownWatchArm) rfl ht).trans ?_
    have hrefused : (s.holding .host (.watchArm .host tag)).heldMatch = true ∨
        (s.holding .host (.watchArm .host tag)).watch.mask = 0 := h
    rw [ownWatchArm, if_pos hrefused]
    rfl
  case refine_4 =>
    subst hw
    exact serve_taken (own := ownWatchDisarm) rfl ht
  case refine_5 =>
    refine (serve_taken (own := ownCapRead) rfl ht).trans ?_
    have hcode : s.encCapRead =
        (match s.capture with
          | none => [0x00, 0x00]
          | some r => [0x00, if r.kind = .watchMatch then 2 else 1] ++ encCapture r) ++
          yes s.moreFaults ++ s.encWatch := by
      unfold State.encCapRead State.captureCode State.heldMatch State.heldFault
      cases s.capture with
      | none => rfl
      | some r => by_cases hk : r.kind = .watchMatch <;> simp [hk, stDone]
    exact congrArg (fun reply => Host.Outcome.next (s.replies .host 0x49 tag reply)) hcode
  case refine_6 =>
    subst hc
    exact serve_taken (own := ownCapClear) rfl ht
  case refine_7 =>
    rw [State.raiseFault, hc, hr]
    rfl
  case refine_8 =>
    obtain ⟨r, hr⟩ := Option.ne_none_iff_exists'.1 hc
    rw [State.raiseFault, hr]

/-! A raising (R170 to R172) -/

section Raise

variable {s : State} {k : AlertKind} {subj : Subject} {v : Option AlertValue} {a : Alert} {before after : List Alert}

theorem Alert.isFor_iff : a.isFor k subj = true ↔ a.kind = k ∧ a.subject.same subj = true ∧ a.retired = false := by
  simp [Alert.isFor, and_assoc]

/-- The queue after coalescing and supersession. -/
def State.keptAlerts (s : State) (k : AlertKind) (subj : Subject) (v : Option AlertValue) : List Alert :=
  (s.alerts.map fun a => if a.isFor k subj then a.coalesce subj s.clock v else a).filter
    fun a => !a.supersededBy k subj

/-- The entry a raising adds. -/
def State.newAlert (s : State) (k : AlertKind) (subj : Subject) (v : Option AlertValue) : Alert :=
  { kind := k, subject := subj, retired := false, stamp := s.clock, count := 1, value := v }

theorem State.raise_hit (h : ∃ a ∈ s.alerts, a.isFor k subj = true) :
    s.raise k subj v = { s with alerts := s.keptAlerts k subj v } := by
  rw [State.raise, if_pos (by simpa using h)]
  rfl

theorem State.raise_room (h : ∀ a ∈ s.alerts, a.isFor k subj = false) (hroom : (s.keptAlerts k subj v).length < 128) :
    s.raise k subj v = { s with alerts := s.keptAlerts k subj v ++ [s.newAlert k subj v] } := by
  rw [State.raise, if_neg (by simpa using h)]
  exact if_pos hroom

theorem State.raise_full (h : ∀ a ∈ s.alerts, a.isFor k subj = false)
    (hfull : 128 ≤ (s.keptAlerts k subj v).length) :
    s.raise k subj v =
      if lowestRank (s.keptAlerts k subj v) < k.rank then
        { s with
          alerts :=
            ((s.keptAlerts k subj v).eraseP fun a => a.kind.rank = lowestRank (s.keptAlerts k subj v)) ++
              [s.newAlert k subj v]
          overflow := true }
      else { s with alerts := s.keptAlerts k subj v, overflow := true } := by
  rw [State.raise, if_neg (by simpa using h)]
  exact if_neg (Nat.not_lt.2 hfull)

/-- A raising leaves in the queue only what it kept and its own entry. -/
theorem State.mem_raise (h : a ∈ (s.raise k subj v).alerts) : a ∈ s.keptAlerts k subj v ∨ a = s.newAlert k subj v := by
  by_cases hhit : ∃ a ∈ s.alerts, a.isFor k subj = true
  · rw [State.raise_hit hhit] at h
    exact .inl h
  · have hmiss : ∀ a ∈ s.alerts, a.isFor k subj = false := by simpa using hhit
    rcases Nat.lt_or_ge (s.keptAlerts k subj v).length 128 with hroom | hfull
    · rw [State.raise_room hmiss hroom] at h
      simpa using h
    · rw [State.raise_full hmiss hfull] at h
      split at h
      · rcases List.mem_append.1 h with h | h
        · exact .inl (List.mem_of_mem_eraseP h)
        · exact .inr (List.mem_singleton.1 h)
      · exact .inl h

theorem State.not_superseded_of_mem_kept (h : a ∈ s.keptAlerts k subj v) : a.supersededBy k subj = false := by
  simpa using (List.mem_filter.1 h).2

/-- No raising supersedes entries of its own kind (R171). -/
theorem Alert.not_superseded_of_kind (h : a.kind = k) : a.supersededBy k subj = false := by
  cases k <;> simp [Alert.supersededBy, Alert.isFor, h]

/-- Where nothing is superseded, the queue keeps every entry. -/
theorem State.keptAlerts_of_not_superseded (h : ∀ a ∈ s.alerts, a.supersededBy k subj = false) :
    s.keptAlerts k subj v = s.alerts.map fun a => if a.isFor k subj then a.coalesce subj s.clock v else a := by
  refine List.filter_eq_self.2 fun b hb => ?_
  obtain ⟨a, ha, rfl⟩ := List.mem_map.1 hb
  by_cases hfor : a.isFor k subj = true
  · have hkind : (a.coalesce subj s.clock v).kind = k := by
      simp only [Alert.isFor, Bool.and_eq_true, decide_eq_true_eq] at hfor
      exact hfor.1.1
    simp [hfor, Alert.not_superseded_of_kind hkind]
  · simp [hfor, h a ha]

theorem State.keptAlerts_of_missed (hs : ∀ a ∈ s.alerts, a.supersededBy k subj = false)
    (h : ∀ a ∈ s.alerts, a.isFor k subj = false) : s.keptAlerts k subj v = s.alerts := by
  rw [State.keptAlerts_of_not_superseded hs]
  refine (List.map_congr_left fun a ha => ?_).trans (List.map_id _)
  rw [h a ha]
  rfl

theorem le_foldl_min_iff {r : Nat} {as : List Alert} : ∀ {m : Nat},
    r ≤ as.foldl (fun m a => min m a.kind.rank) m ↔ r ≤ m ∧ ∀ b ∈ as, r ≤ b.kind.rank := by
  induction as with
  | nil => simp
  | cons a as ih => simp [ih, and_assoc]

theorem le_lowestRank_iff {r : Nat} {as : List Alert} :
    r ≤ lowestRank as ↔ r ≤ 3 ∧ ∀ b ∈ as, r ≤ b.kind.rank := le_foldl_min_iff

/-- The lowest rank is that of an entry with no lower before or after it. -/
theorem lowestRank_of_split (hbefore : ∀ b ∈ before, a.kind.rank ≤ b.kind.rank)
    (hafter : ∀ b ∈ after, a.kind.rank ≤ b.kind.rank) : lowestRank (before ++ a :: after) = a.kind.rank := by
  have hall : ∀ b ∈ before ++ a :: after, a.kind.rank ≤ b.kind.rank := by
    simp only [List.mem_append, List.mem_cons]
    rintro b (hb | rfl | hb)
    · exact hbefore b hb
    · exact Nat.le_refl _
    · exact hafter b hb
  obtain ⟨-, hle⟩ := le_lowestRank_iff.1 (Nat.le_refl (lowestRank (before ++ a :: after)))
  exact Nat.le_antisymm (hle a (by simp)) (le_lowestRank_iff.2 ⟨a.kind.rank_le, hall⟩)

theorem Subject.same_mergeSubject {old new : Subject} (h : old.same new = true) :
    (mergeSubject old new).same new = true := by
  cases old <;> cases new <;> simp_all [Subject.same, mergeSubject]

end Raise

/-- Settles O51: what a raising kept is the queue with the entry of its kind and subject coalesced; the test for room
decides what it adds. -/
theorem alertIsRaised : Obligations.AlertIsRaised := by
  refine ⟨fun s it la a => ⟨fun h => ?_, fun h => ?_⟩, ?_⟩
  case refine_1 =>
    rcases State.mem_raise h with hk | rfl
    · exact State.not_superseded_of_mem_kept hk
    · rfl
  case refine_2 =>
    rcases State.mem_raise h with hk | rfl
    · simpa [Alert.supersededBy] using State.not_superseded_of_mem_kept hk
    · exact ⟨rfl, rfl⟩
  rintro s k subj v new hs hnew
  obtain rfl : new = s.newAlert k subj v := hnew
  refine ⟨fun before after a hsplit hfor hothers => ?_, fun hmiss hroom => ?_,
    fun before after a hmiss hfull hsplit hlower hbefore hafter => ?_, fun hmiss hfull hranks => ?_⟩
  case refine_3.refine_1 =>
    have hkept : (s.keptAlerts k subj v) = before ++ a.coalesce subj s.clock v :: after := by
      have hkeep (as : List Alert) (has : ∀ b ∈ as, b.isFor k subj = false) :
          (as.map fun a => if a.isFor k subj then a.coalesce subj s.clock v else a) = as := by
        refine (List.map_congr_left fun b hb => ?_).trans (List.map_id _)
        rw [has b hb]
        rfl
      rw [State.keptAlerts_of_not_superseded hs, hsplit, List.map_append, List.map_cons, if_pos hfor,
        hkeep before fun b hb => hothers b (List.mem_append_left _ hb),
        hkeep after fun b hb => hothers b (List.mem_append_right _ hb)]
    obtain ⟨hkind, hsame, hretired⟩ := Alert.isFor_iff.1 hfor
    refine ⟨a.coalesce subj s.clock v, ?_, hkind, hretired, rfl, rfl, Subject.same_mergeSubject hsame, fun h => ?_,
      fun m n hk ha hv => ?_⟩
    · rw [State.raise_hit ⟨a, by simp [hsplit], hfor⟩, hkept]
    · show mergeValue a.kind a.value v = v
      rw [hkind]
      rcases h with rfl | rfl | rfl | rfl <;> rfl
    · show mergeValue a.kind a.value v = _
      rw [hkind, hk, ha, hv]
      rfl
  case refine_3.refine_2 =>
    rw [State.raise_room hmiss (by rwa [State.keptAlerts_of_missed hs hmiss]), State.keptAlerts_of_missed hs hmiss]
  case refine_3.refine_3 =>
    have hlowest : lowestRank s.alerts = a.kind.rank := by
      rw [hsplit]
      exact lowestRank_of_split (fun b hb => Nat.le_of_lt (hbefore b hb)) hafter
    have herase : (s.alerts.eraseP fun b => decide (b.kind.rank = a.kind.rank)) = before ++ after := by
      rw [hsplit, List.eraseP_append_right _ fun b hb => ?_, List.eraseP_cons_of_pos (by simp)]
      simpa using Nat.ne_of_gt (hbefore b hb)
    rw [State.raise_full hmiss (by rwa [State.keptAlerts_of_missed hs hmiss]), State.keptAlerts_of_missed hs hmiss,
      hlowest, if_pos hlower, herase]
  case refine_3.refine_4 =>
    have hlowest : ¬lowestRank s.alerts < k.rank := Nat.not_lt.2 (le_lowestRank_iff.2 ⟨k.rank_le, hranks⟩)
    rw [State.raise_full hmiss (by rwa [State.keptAlerts_of_missed hs hmiss]), State.keptAlerts_of_missed hs hmiss,
      if_neg hlowest]

/-! Returning alerts (R175 to R177) -/

theorem fitCount_le (f : Nat → Nat) (n : Nat) : fitCount f n ≤ n := by
  induction n with
  | zero => exact Nat.le_refl 0
  | succ n ih =>
    rw [fitCount]
    split
    · exact Nat.le_refl _
    · exact Nat.le_succ_of_le ih

theorem dropRank_sublist (r n : Nat) (as : List Alert) : (dropRank r n as).Sublist as := by
  induction as generalizing n with
  | nil => cases n <;> exact List.Sublist.refl _
  | cons a as ih =>
    cases n with
    | zero => exact List.Sublist.refl _
    | succ n =>
      rw [dropRank]
      split
      · exact (ih n).cons a
      · exact (ih (n + 1)).cons_cons a

/-- What leaves is the first entries of the rank. -/
theorem take_ofRank_dropRank (r n : Nat) (as : List Alert) : ((ofRank r as).take n ++ dropRank r n as).Perm as := by
  induction as generalizing n with
  | nil => cases n <;> exact List.Perm.refl _
  | cons a as ih =>
    cases n with
    | zero => exact List.Perm.refl _
    | succ n =>
      rw [dropRank, ofRank]
      by_cases ha : a.kind.rank = r
      · rw [if_pos ha, List.filter_cons_of_pos (by simpa using ha), List.take_succ_cons]
        exact (ih n).cons a
      · rw [if_neg ha, List.filter_cons_of_neg (by simpa using ha)]
        exact List.perm_middle.trans ((ih (n + 1)).cons a)

/-- The entries of the other ranks stay. -/
theorem ofRank_dropRank {r r' : Nat} (hr : r' ≠ r) (n : Nat) (as : List Alert) :
    ofRank r' (dropRank r n as) = ofRank r' as := by
  induction as generalizing n with
  | nil => cases n <;> rfl
  | cons a as ih =>
    cases n with
    | zero => rfl
    | succ n =>
      rw [dropRank]
      by_cases ha : a.kind.rank = r
      · rw [if_pos ha, ih, ofRank, ofRank, List.filter_cons_of_neg (by simp [ha, hr.symm])]
      · rw [if_neg ha, ofRank, ofRank, List.filter_cons, List.filter_cons]
        have hrest := ih (n + 1)
        rw [ofRank, ofRank] at hrest
        rw [hrest]

theorem AlertKind.rank_cases (k : AlertKind) : k.rank = 3 ∨ k.rank = 2 ∨ k.rank = 1 := by
  cases k <;> simp [AlertKind.rank]

theorem alertSelection_perm (o : AlertOrder) (as : List Alert) : (alertSelection o as).Perm as := by
  cases o with
  | age => exact List.Perm.refl _
  | rank =>
    induction as with
    | nil => exact List.Perm.refl _
    | cons a as ih =>
      simp only [alertSelection, ofRank] at ih ⊢
      rcases a.kind.rank_cases with h | h | h
      · simpa [List.filter_cons, h] using ih
      · simp only [List.filter_cons, h]
        exact (List.Perm.append_right _ List.perm_middle).trans (ih.cons a)
      · simp only [List.filter_cons, h]
        exact List.perm_middle.trans (ih.cons a)

theorem alertsLeft_sublist (o : AlertOrder) (n : Nat) (as : List Alert) : (alertsLeft o n as).Sublist as := by
  cases o with
  | age => exact List.drop_sublist n as
  | rank => exact (dropRank_sublist ..).trans ((dropRank_sublist ..).trans (dropRank_sublist ..))

/-- The entries returned and the entries left are the queue. -/
theorem take_alertSelection_left (o : AlertOrder) (n : Nat) (as : List Alert) :
    ((alertSelection o as).take n ++ alertsLeft o n as).Perm as := by
  cases o with
  | age => exact (List.take_append_drop n as).symm ▸ List.Perm.refl _
  | rank =>
    obtain ⟨n3, hn3⟩ : ∃ m, m = min n (ofRank 3 as).length := ⟨_, rfl⟩
    obtain ⟨n2, hn2⟩ : ∃ m, m = min (n - n3) (ofRank 2 as).length := ⟨_, rfl⟩
    obtain ⟨d1, hd1⟩ : ∃ d, d = dropRank 1 (n - n3 - n2) as := ⟨_, rfl⟩
    obtain ⟨d2, hd2⟩ : ∃ d, d = dropRank 2 n2 d1 := ⟨_, rfl⟩
    have h1 := take_ofRank_dropRank 1 (n - n3 - n2) as
    have h2 := take_ofRank_dropRank 2 n2 d1
    have h3 := take_ofRank_dropRank 3 n3 d2
    have hleft : alertsLeft .rank n as = dropRank 3 n3 d2 := by rw [hd2, hd1, hn2, hn3]; rfl
    have hsel : (alertSelection .rank as).take n =
        (ofRank 3 as).take n3 ++ (ofRank 2 as).take n2 ++ (ofRank 1 as).take (n - n3 - n2) := by
      have h3 : (ofRank 3 as).take n = (ofRank 3 as).take n3 := List.take_eq_take_iff.2 (by omega)
      have h2 : (ofRank 2 as).take (n - (ofRank 3 as).length) = (ofRank 2 as).take n2 :=
        List.take_eq_take_iff.2 (by omega)
      have h1 : n - (ofRank 3 as ++ ofRank 2 as).length = n - n3 - n2 := by
        rw [List.length_append]
        omega
      rw [alertSelection, List.take_append, List.take_append, h3, h2, h1]
    rw [← hd1] at h1
    rw [← hd2, hd1, ofRank_dropRank (by decide), ← hd1] at h2
    rw [hd2, ofRank_dropRank (by decide), hd1, ofRank_dropRank (by decide), ← hd1, ← hd2] at h3
    rw [hsel, hleft]
    calc
      _ = (ofRank 3 as).take n3 ++ ((ofRank 2 as).take n2 ++ ((ofRank 1 as).take (n - n3 - n2) ++ dropRank 3 n3 d2)) := by
        simp
      List.Perm _ ((ofRank 1 as).take (n - n3 - n2) ++ ((ofRank 2 as).take n2 ++
          ((ofRank 3 as).take n3 ++ dropRank 3 n3 d2))) :=
        ((List.perm_append_comm_assoc ..).append_left _).trans <|
          (List.perm_append_comm_assoc ..).trans ((List.perm_append_comm_assoc ..).append_left _)
      List.Perm _ ((ofRank 1 as).take (n - n3 - n2) ++ ((ofRank 2 as).take n2 ++ d2)) := (h3.append_left _).append_left _
      List.Perm _ ((ofRank 1 as).take (n - n3 - n2) ++ d1) := h2.append_left _
      List.Perm _ as := h1

/-- Settles O52: what `fitCount` allows of the selection leaves the queue by `dropRank`, and the reply is the owner's. -/
theorem alertsAreReturned : Obligations.AlertsAreReturned := by
  refine ⟨?_, fun as n => ⟨rfl, rfl⟩, fun as => rfl⟩
  rintro s tag maximum n sel left i body rfl ht hn hbody hsel hleft
  have henc (m : Nat) : body m = s.encAlerts m := hbody m _ rfl
  have hmin : n ≤ min (maximum.getD 8).toNat s.alerts.length := hn ▸ fitCount_le ..
  have hlength : sel.length = n := by
    rw [hsel, List.length_take, (alertSelection_perm ..).length_eq]
    omega
  refine ⟨by omega, by omega, ?_, hlength, ?_, ?_, ?_⟩
  case refine_1 => simp only [henc]; exact hn
  case refine_2 => rw [hsel, hleft]; exact take_alertSelection_left ..
  case refine_3 => rw [hleft]; exact alertsLeft_sublist ..
  case refine_4 =>
    have hreply : s.encAlerts n =
        [0x00] ++ yes s.overflow ++ u8 n ++ u8 (s.alerts.length - n) ++ encList (sel.map encAlert) := by
      rw [← henc, hbody n sel hsel, hlength]
    refine (serve_taken (own := ownAlerts maximum) rfl ht).trans ?_
    rw [hleft, ← hreply, hn]
    rfl

end Sys2Proof.Machine

/-! PROOFS. Accepting a batch (R125), and OPEN, PACK and PLACE of a container (R100, R101, R126). -/

namespace Sys2Proof.Machine

-- One proof after another: elaborated side by side, so many short ones outgrow the memory a compile may take.
set_option Elab.async false

open Sys2Proof

/-! Accepting a batch (R102, R124, R125) -/

section Accept

variable (s : State) (job : BatchJob) (l : Link) (walk containers : List Nat)

theorem State.acceptBatch_carrier (m : Nat) :
    (s.acceptBatch job l walk containers).carrier m =
      if m ∈ walk then (s.carrier m).map fun c => { c with inTransit := true } else s.carrier m :=
  State.carrier_markAll ..

theorem State.acceptBatch_container (m : Nat) :
    (s.acceptBatch job l walk containers).container m =
      if m ∈ containers then (s.container m).map fun c => { c with inTransit := true } else s.container m :=
  State.container_markAll ..

theorem State.acceptBatch_nextBatch : (s.acceptBatch job l walk containers).nextBatch = (s.nextBatch + 1) % 256 := by
  rw [State.acceptBatch, State.markAll_eta]

theorem State.acceptBatch_batches :
    (s.acceptBatch job l walk containers).batches =
      s.batches ++
        [{ number := s.nextBatch, job := job, link := l, total := job.steps walk, done := 0, leftBehind := 0,
           walk := walk, carriers := walk, containers := containers }] := by
  rw [State.acceptBatch, State.markAll_eta]

/-- The marks leave the change stamps. -/
theorem State.acceptBatch_stampOf (it : Item) :
    (s.acceptBatch job l walk containers).stampOf it = s.stampOf it := by
  cases it with
  | carrier n =>
    simp only [State.stampOf, State.acceptBatch_carrier]
    cases s.carrier n <;> split <;> rfl
  | container n =>
    simp only [State.stampOf, State.acceptBatch_container]
    cases s.container n <;> split <;> rfl

end Accept

/-- Settles O41: the queue and the marks are what `acceptBatch` writes. -/
theorem batchIsAccepted : Obligations.BatchIsAccepted := by
  rintro s t job l walk containers rfl
  refine ⟨State.acceptBatch_nextBatch .., ?_, fun n hn => ?_, fun n hn => ?_, fun n hn => ?_, fun n hn => ?_,
    State.acceptBatch_eta ..⟩
  case refine_1 =>
    rw [State.acceptBatch_batches]
    cases job <;> rfl
  case refine_2 => rw [State.acceptBatch_carrier, if_pos hn]
  case refine_3 => rw [State.acceptBatch_carrier, if_neg hn]
  case refine_4 => rw [State.acceptBatch_container, if_pos hn]
  case refine_5 => rw [State.acceptBatch_container, if_neg hn]

/-! Requests that name a container -/

section StepEight

variable (s : State) (l : Link) (i : Instr) (it : Item) (n : Nat)

@[simp] theorem State.stepEight_container : (s.stepEight l i it).container n = s.container n := by cases l <;> rfl
@[simp] theorem State.stepEight_packedFlag : (s.stepEight l i it).packedFlag n = s.packedFlag n := by cases l <;> rfl
@[simp] theorem State.stepEight_parentOf : (s.stepEight l i it).parentOf n = s.parentOf n := by cases l <;> rfl
@[simp] theorem State.stepEight_mapLoc : (s.stepEight l i it).mapLoc n = s.mapLoc n := by cases l <;> rfl
@[simp] theorem State.stepEight_zone : (s.stepEight l i it).zone n = s.zone n := by cases l <;> rfl
@[simp] theorem State.stepEight_batches : (s.stepEight l i it).batches = s.batches := by cases l <;> rfl
@[simp] theorem State.stepEight_nextBatch : (s.stepEight l i it).nextBatch = s.nextBatch := by cases l <;> rfl

@[simp] theorem State.stepEight_stampOf (x : Item) : (s.stepEight l i it).stampOf x = s.stampOf x := by
  cases l <;> cases x <;> rfl

@[simp] theorem State.stepEight_locOfParent (p : Option Parent) :
    (s.stepEight l i it).locOfParent p = s.locOfParent p := by
  cases l <;> rfl

@[simp] theorem State.stepEight_subCarriers : (s.stepEight l i it).subCarriers n = s.subCarriers n := by
  cases l <;> rfl

@[simp] theorem State.stepEight_subContainers : (s.stepEight l i it).subContainers n = s.subContainers n := by
  cases l <;> rfl

@[simp] theorem State.stepEight_subtreeInTransit :
    (s.stepEight l i it).subtreeInTransit n = s.subtreeInTransit n := by
  cases l <;> rfl

@[simp] theorem State.stepEight_forecast (t : Nat) (cs : List Nat) :
    (s.stepEight l i it).forecast t cs = s.forecast t cs := by
  cases l <;> rfl

end StepEight

section Queue

variable (g : State) (l : Link) (n : Nat)

theorem queuedReply_acceptBatch (job : BatchJob) (walk containers : List Nat) (number : Nat) :
    queuedReply (g.acceptBatch job l walk containers) number n =
      [0x01] ++ u16 (g.stampOf (.container n)) ++ [0xFF] ++ u8 number := by
  rw [queuedReply, State.pastStep8, State.acceptBatch_stampOf]
  rfl

/-- A container refusal carries the stamp and no life status (R68). -/
theorem State.refuseContainer_eq (st : Byte) :
    g.refuseContainer n st [] = (g, [st] ++ u16 (g.stampOf (.container n)) ++ [0xFF]) := by
  rw [State.refuseContainer, List.append_nil]
  rfl

theorem State.batchRoom_iff : g.batchRoom = true ↔ g.batches.length < 8 := by
  rw [State.batchRoom, decide_eq_true_iff]
  rfl

theorem State.not_batchRoom : ((!g.batchRoom) = true) = (8 ≤ g.batches.length) := by
  rw [Bool.not_eq_true', ← Bool.not_eq_true, State.batchRoom_iff, Nat.not_lt]

theorem queuePacking_eq (job : BatchJob) :
    queuePacking l job n g =
      if g.subtreeInTransit n = true then (g, [0x20] ++ u16 (g.stampOf (.container n)) ++ [0xFF])
      else if 8 ≤ g.batches.length then (g, [0x15] ++ u16 (g.stampOf (.container n)) ++ [0xFF])
      else
        (g.acceptBatch job l (g.subCarriers n) (g.subContainers n),
          [0x01] ++ u16 (g.stampOf (.container n)) ++ [0xFF] ++ u8 g.nextBatch) := by
  simp only [queuePacking, State.not_batchRoom, State.refuseContainer_eq, queuedReply_acceptBatch, stBusy, stFull]

theorem openContainer_eq (loc : Option Nat) :
    openContainer l loc n g =
      if loc ≠ none then (g, [0x11] ++ u16 (g.stampOf (.container n)) ++ [0xFF])
      else if g.packedFlag n = false then (g, [0x18] ++ u16 (g.stampOf (.container n)) ++ [0xFF])
      else queuePacking l (.unpack n) n g := by
  have hloc : (loc.isSome = true) = (loc ≠ none) := by rw [Option.isSome_iff_ne_none]
  simp only [openContainer, hloc, Bool.not_eq_true', State.refuseContainer_eq, stBadField, stState]

theorem packContainer_eq :
    packContainer l n g =
      if g.packedFlag n = true then (g, [0x18] ++ u16 (g.stampOf (.container n)) ++ [0xFF])
      else queuePacking l (.pack n) n g := by
  simp only [packContainer, State.refuseContainer_eq, stState]

theorem queueMove_eq (loc z : Nat) :
    queueMove l loc n z g =
      if g.subtreeInTransit n = true then (g, [0x20] ++ u16 (g.stampOf (.container n)) ++ [0xFF])
      else if 8 ≤ g.batches.length then (g, [0x15] ++ u16 (g.stampOf (.container n)) ++ [0xFF])
      else if (g.zone z).evacuating = true then (g, [0x20] ++ u16 (g.stampOf (.container n)) ++ [0xFF])
      else
        (g.acceptBatch (.move n ((g.container n).bind (·.zone)) z loc) l (g.subCarriers n) (g.subContainers n),
          [0x01] ++ u16 (g.stampOf (.container n)) ++ [0xFF] ++ u8 g.nextBatch ++ u8 z ++
            yes (g.zone z).cfg.gated ++ u16 (g.forecast z (g.subCarriers n))) := by
  have hzone (job : BatchJob) (walk ks : List Nat) : (g.acceptBatch job l walk ks).zone z = g.zone z := by
    rw [State.acceptBatch_eta]
    rfl
  simp only [queueMove, State.not_batchRoom, State.refuseContainer_eq, moveReply, queuedReply_acceptBatch, hzone, stBusy, stFull]

theorem placeContainer_nested (label : Label) (loc : Nat) (h : g.parentOf n ≠ none) :
    placeContainer l label loc n g = (g, [0x19] ++ u16 (g.stampOf (.container n)) ++ [0xFF]) := by
  rw [placeContainer, if_pos (by rwa [Option.isSome_iff_ne_none]), State.refuseContainer_eq]
  rfl

theorem placeContainer_unmapped (label : Label) (loc : Nat) (h : g.parentOf n = none) (hm : g.mapLoc loc = none) :
    placeContainer l label loc n g =
      (g.raiseFault .unmapped (linkSource l) (some label) (some loc) none,
        [0x17] ++ u16 (g.stampOf (.container n)) ++ [0xFF]) := by
  have hstamp : (g.unmappedFault l (some label) loc).stampOf (.container n) = g.stampOf (.container n) := by
    rw [State.unmappedFault_eta]
    rfl
  rw [placeContainer, if_neg (by simp [h]), hm]
  simp only [State.refuseContainer_eq, hstamp]
  rfl

theorem placeContainer_mapped (label : Label) {loc z : Nat} (h : g.parentOf n = none) (hm : g.mapLoc loc = some z) :
    placeContainer l label loc n g =
      if g.locOfParent ((g.container n).bind (·.parent)) = some loc then
        (g, [0x00] ++ u16 (g.stampOf (.container n)) ++ [0xFF])
      else queueMove l loc n z g := by
  rw [placeContainer, if_neg (by simp [h]), hm]
  rfl

end Queue

/-- Settles O42: the three owners' branches, in the state step 8 begins with. -/
theorem containerBatches : Obligations.ContainerBatches := by
  refine ⟨?_, ?_, ?_⟩
  case refine_1 =>
    rintro s l tag label stamp loc n i rfl hg hp
    have hexec := serve_container (f := openCarrier l label (locOperand loc)) (g := openContainer l (locOperand loc))
      (tag := tag) rfl hg hp
    have hnone : locOperand loc ≠ none ↔ loc ≠ none := by simp [locOperand]
    rw [openContainer_eq, queuePacking_eq] at hexec
    simp only [hnone, State.stepEight_packedFlag, State.stepEight_subtreeInTransit, State.stepEight_batches,
      State.stepEight_stampOf, State.stepEight_nextBatch, State.stepEight_subCarriers,
      State.stepEight_subContainers] at hexec
    refine ⟨fun hl => ?_, fun hl hq => ?_, fun hl hq ht => ?_, fun hl hq ht hf => ?_, fun hl hq ht hf => ?_⟩
    · rw [if_pos hl] at hexec
      exact hexec
    · rw [if_neg (not_not.2 hl), if_pos hq] at hexec
      exact hexec
    · rw [if_neg (not_not.2 hl), if_neg (by simp [hq]), if_pos ht] at hexec
      exact hexec
    · rw [if_neg (not_not.2 hl), if_neg (by simp [hq]), if_neg (by simp [ht]), if_pos hf] at hexec
      exact hexec
    · rw [if_neg (not_not.2 hl), if_neg (by simp [hq]), if_neg (by simp [ht]), if_neg (Nat.not_le.2 hf)] at hexec
      exact hexec
  case refine_2 =>
    rintro s l tag label stamp n i rfl hg hp
    have hexec := serve_container (f := packCarrier) (g := packContainer l) (tag := tag) rfl hg hp
    rw [packContainer_eq, queuePacking_eq] at hexec
    simp only [State.stepEight_packedFlag, State.stepEight_subtreeInTransit, State.stepEight_batches,
      State.stepEight_stampOf, State.stepEight_nextBatch, State.stepEight_subCarriers,
      State.stepEight_subContainers] at hexec
    refine ⟨fun hq => ?_, fun hq ht => ?_, fun hq ht hf => ?_, fun hq ht hf => ?_⟩
    · rw [if_pos hq] at hexec
      exact hexec
    · rw [if_neg (by simp [hq]), if_pos ht] at hexec
      exact hexec
    · rw [if_neg (by simp [hq]), if_neg (by simp [ht]), if_pos hf] at hexec
      exact hexec
    · rw [if_neg (by simp [hq]), if_neg (by simp [ht]), if_neg (Nat.not_le.2 hf)] at hexec
      exact hexec
  case refine_3 =>
    rintro s l tag label stamp loc n i rfl hg hp
    have hexec := serve_container (f := placeCarrier l label loc.toNat) (g := placeContainer l label loc.toNat)
      (tag := tag) rfl hg hp
    obtain ⟨g, hgdef⟩ : ∃ g, g = s.stepEight l (.place l tag label stamp loc) (.container n) := ⟨_, rfl⟩
    rw [← hgdef] at hexec ⊢
    have hparent : g.parentOf n = s.parentOf n := by simp [hgdef]
    have hmap : g.mapLoc loc.toNat = s.mapLoc loc.toNat := by simp [hgdef]
    have hcontainer : g.container n = s.container n := by simp [hgdef]
    have hlocOf (p : Option Parent) : g.locOfParent p = s.locOfParent p := by simp [hgdef]
    have hstamp : g.stampOf (.container n) = s.stampOf (.container n) := by simp [hgdef]
    have htransit : g.subtreeInTransit n = s.subtreeInTransit n := by simp [hgdef]
    have hbatches : g.batches = s.batches := by simp [hgdef]
    have hzone (z : Nat) : g.zone z = s.zone z := by simp [hgdef]
    refine ⟨fun hn => ?_, fun hn hm => ?_, fun z hn hm => ⟨fun hloc => ?_, fun hloc ht => ?_, fun hloc ht hf => ?_,
      fun hloc ht hf => ⟨fun he => ?_, fun he => ?_⟩⟩⟩
    · rw [placeContainer_nested _ _ _ _ _ (by rwa [hparent]), hstamp] at hexec
      exact hexec
    · rw [placeContainer_unmapped _ _ _ _ _ (hparent.trans hn) (hmap.trans hm), hstamp] at hexec
      exact hexec
    all_goals
      rw [placeContainer_mapped _ _ _ _ (hparent.trans hn) (hmap.trans hm), hcontainer, hlocOf] at hexec
    · rw [if_pos hloc, hstamp] at hexec
      exact hexec
    all_goals
      rw [if_neg hloc, queueMove_eq, htransit, hbatches, hstamp] at hexec
    · rw [if_pos ht] at hexec
      exact hexec
    · rw [if_neg (by simp [ht]), if_pos hf] at hexec
      exact hexec
    all_goals
      rw [if_neg (by simp [ht]), if_neg (Nat.not_le.2 hf), hzone] at hexec
    · rw [if_pos he] at hexec
      exact hexec
    · have hnext : g.nextBatch = s.nextBatch := by simp [hgdef]
      have hcarriers : g.subCarriers n = s.subCarriers n := by simp [hgdef]
      have hcontainers : g.subContainers n = s.subContainers n := by simp [hgdef]
      have hforecast : g.forecast z (s.subCarriers n) = s.forecast z (s.subCarriers n) := by simp [hgdef]
      rw [if_neg (by simp [he]), hcontainer, hcarriers, hcontainers, hnext, hforecast] at hexec
      exact hexec

end Sys2Proof.Machine

/-! PROOFS. A carrier request at step 8 (R68, R70): the settle, the move and its reply. -/

namespace Sys2Proof.Machine

-- One proof after another: elaborated side by side, so many short ones outgrow the memory a compile may take.
set_option Elab.async false

open Sys2Proof

/-! The record a residence change leaves -/

section Residence

variable {g : State} {n : Nat} {k : Carrier} {r : Residence}

/-- What a residence change gives the record, and what it leaves (R4). -/
theorem State.changeResidence_record (hk : g.carrier n = some k) :
    ∃ e, (g.changeResidence n r).1.carrier n = some e ∧ e.parent = r.parent ∧ e.packed = r.packed ∧ e.zone = r.zone ∧
      e.mode = r.mode ∧ e.hold = k.hold ∧ e.stamp = k.stamp ∧ e.inTransit = k.inTransit ∧ e.cls = k.cls := by
  cases hm : k.moves r with
  | true =>
    obtain ⟨kcls, -, -, -, -, -, -, khold, kstamp, ktransit, -⟩ := g.settled_kept k
    obtain ⟨mparent, mpacked, mzone, mmode, -, -, -, -, -, -, mstamp, mhold, mcls, mtransit, -⟩ :=
      moveRecord_kept r (g.integrals r.zone).1 (g.integrals r.zone).2 g.clock g.minuteCount (g.settled k).1
    obtain ⟨tcls, tpacked, tparent, tzone, tmode, -, -, thold, tstamp, ttransit, -⟩ :=
      g.settled_kept (moveRecord r (g.integrals r.zone).1 (g.integrals r.zone).2 g.clock g.minuteCount (g.settled k).1)
    exact ⟨_, by rw [g.carrier_changeResidence n n r k hk hm, if_pos rfl], tparent.trans mparent, tpacked.trans mpacked,
      tzone.trans mzone, tmode.trans mmode, (thold.trans mhold).trans khold, (tstamp.trans mstamp).trans kstamp,
      (ttransit.trans mtransit).trans ktransit, (tcls.trans mcls).trans kcls⟩
  | false =>
    have hstays : ¬(k.zone ≠ r.zone ∨ k.mode ≠ r.mode ∨ k.parent ≠ r.parent) := by
      rw [← k.moves_iff, hm]
      exact Bool.false_ne_true
    simp only [ne_eq, not_or, not_not] at hstays
    obtain ⟨hzone, hmode, -⟩ := hstays
    exact ⟨{ k with parent := r.parent, packed := r.packed },
      by rw [g.changeResidence_stays n r k hk hm]; exact State.carrier_setCarrier _ _ _, rfl, rfl, hzone, hmode,
      rfl, rfl, rfl, rfl⟩

theorem State.changeResidence_others (hk : g.carrier n = some k) {m : Nat} (hm : m ≠ n) :
    (g.changeResidence n r).1.carrier m = g.carrier m := by
  cases hmoves : k.moves r with
  | true => rw [g.carrier_changeResidence n m r k hk hmoves, if_neg hm]
  | false =>
    rw [g.changeResidence_stays n r k hk hmoves]
    exact tabGet_put_other n m _ hm _

/-- Moving a carrier writes the carriers, the zones and the Alert Queue only. -/
theorem State.moveCarrier_eta (g : State) (n : Nat) (k : Carrier) (r : Residence) :
    g.moveCarrier n k r =
      { g with
        carriers := (g.moveCarrier n k r).carriers
        zones := (g.moveCarrier n k r).zones
        alerts := (g.moveCarrier n k r).alerts
        overflow := (g.moveCarrier n k r).overflow } := by
  unfold State.moveCarrier State.bumpCarrier
  dsimp only
  rw [State.modCarrier_eta]
  split
  · rw [State.bakeRefusal_eta, State.changeResidence_eta]
  · rw [State.changeResidence_eta]

theorem State.airKept_moveCarrier (g : State) (n : Nat) (k : Carrier) (r : Residence) :
    g.airKept (g.moveCarrier n k r) := by
  have hzones : (g.moveCarrier n k r).zones = (g.changeResidence n r).1.zones := by
    unfold State.moveCarrier State.bumpCarrier
    dsimp only
    rw [State.modCarrier_eta]
    split
    · rw [State.bakeRefusal_eta]
    · rfl
  intro m
  have h := g.airKept_changeResidence n r m
  simpa only [State.zone, hzones] using h

theorem State.moveCarrier_others (hk : g.carrier n = some k) {m : Nat} (hm : m ≠ n) (c : Carrier) :
    (g.moveCarrier n c r).carrier m = g.carrier m := by
  rw [← State.changeResidence_others (r := r) hk hm]
  unfold State.moveCarrier
  dsimp only
  rw [State.carrier_bumpCarrier, if_neg hm]
  split
  · rw [State.bakeRefusal_eta]
    rfl
  · rfl

/-- The record a moved carrier has (R4, R156). -/
theorem State.moveCarrier_record {c : Carrier} (hk : g.carrier n = some k) (hz : k.zone = c.zone) (hm : k.mode = c.mode)
    (hs : k.stamp = c.stamp) :
    ∃ d, (g.moveCarrier n k r).carrier n = some d ∧ d.parent = r.parent ∧ d.packed = r.packed ∧ d.zone = r.zone ∧
      d.mode = r.mode ∧ d.stamp = nextStamp c.stamp ∧ d.hold = k.hold ∧ d.inTransit = k.inTransit ∧
      g.carrierMoved (g.moveCarrier n k r) n c r false d := by
  obtain ⟨d, hd, hmoved⟩ := State.moveCarrier_spec r hk hz hm hs
  obtain ⟨e, he, eparent, epacked, ezone, emode, ehold, -, etransit, -⟩ := State.changeResidence_record (r := r) hk
  obtain ⟨hrecord, -⟩ := id hmoved
  obtain rfl : d = { e with stamp := nextStamp c.stamp } := by simpa [he] using hrecord
  exact ⟨_, hd, eparent, epacked, ezone, emode, rfl, ehold, etransit, hmoved⟩

end Residence

/-! Step 8 of a carrier request -/

/-- The state a carrier request's own conditions meet: the claim reloaded and the carrier settled (R70, R151). -/
def State.settledAtEight (s : State) (l : Link) (i : Instr) (n : Nat) : State :=
  ((s.stepEight l i (.carrier n)).settle n).1

section SettledAtEight

variable {s g : State} {l : Link} {i : Instr} {n : Nat} {c k : Carrier} {r : Residence}

theorem State.airKept_stepEight (s : State) (l : Link) (i : Instr) (it : Item) : s.airKept (s.stepEight l i it) := by
  intro m
  rw [State.stepEight_zone]

theorem State.movesOnly_stepEight (s : State) (l : Link) (i : Instr) (it : Item) :
    s.movesOnly (s.stepEight l i it) := by
  cases l <;> rfl

theorem State.movesOnly_settle (s : State) (n : Nat) : s.movesOnly (s.settle n).1 := by
  unfold State.movesOnly
  rw [State.settle_eta]

theorem State.movesOnly_moveCarrier (s : State) (n : Nat) (c : Carrier) (r : Residence) :
    s.movesOnly (s.moveCarrier n c r) := by
  unfold State.movesOnly
  rw [State.moveCarrier_eta]

theorem State.settledAtEight_eta (s : State) (l : Link) (i : Instr) (n : Nat) :
    s.settledAtEight l i n =
      { s.stepEight l i (.carrier n) with
        carriers := (s.settledAtEight l i n).carriers
        zones := (s.settledAtEight l i n).zones
        alerts := (s.settledAtEight l i n).alerts
        overflow := (s.settledAtEight l i n).overflow } :=
  State.settle_eta _ n

theorem State.settledAtEight_same (hc : s.carrier n = some c) :
    (s.settledAtEight l i n).carrier n = some (s.settled c).1 := by
  simp [State.settledAtEight, State.carrier_settle, hc]

theorem State.settledAtEight_others {m : Nat} (hm : m ≠ n) : (s.settledAtEight l i n).carrier m = s.carrier m := by
  simp [State.settledAtEight, State.carrier_settle, hm]

theorem State.settledAtEight_airKept : s.airKept (s.settledAtEight l i n) :=
  State.airKept_trans (s.airKept_stepEight l i _) (State.airKept_settle _ n)

theorem State.settledAtEight_movesOnly : s.movesOnly (s.settledAtEight l i n) :=
  (s.movesOnly_stepEight l i _).trans (State.movesOnly_settle _ n)

theorem State.settledAtEight_locOfParent (p : Option Parent) :
    (s.settledAtEight l i n).locOfParent p = s.locOfParent p := by
  rw [State.settledAtEight_eta]
  cases l <;> rfl

theorem State.settledAtEight_modeUnder (p : Option Parent) (zone : Option Nat) (packed : Bool) :
    (s.settledAtEight l i n).modeUnder p zone packed = s.modeUnder p zone packed := by
  have hflags : (s.settledAtEight l i n).chainOfParent p = s.chainOfParent p ∧
      (s.settledAtEight l i n).packedFlag = s.packedFlag := by
    rw [State.settledAtEight_eta]
    cases l <;> exact ⟨rfl, rfl⟩
  obtain ⟨hchain, hpacked⟩ := hflags
  rw [State.modeUnder, State.airKept_modeIn State.settledAtEight_airKept, hchain, hpacked]
  rfl

/-- Step 8 hands the request the settled record (R70). -/
theorem withSettled_stepEight (act : Carrier → Bool → Owner) (hc : s.carrier n = some c) :
    withSettled n act (s.stepEight l i (.carrier n)) =
      act (s.settled c).1
        (decide (c.life ≠ (s.settled c).1.life) || decide (c.bakeCount ≠ (s.settled c).1.bakeCount))
        (s.settledAtEight l i n) := by
  rw [withSettled_eq act (by rwa [State.stepEight_carrier]), State.stepEight_settled]
  rfl

/-- An entry leaves the zones alone. -/
theorem State.capturesOnly.airKept (h : s.capturesOnly g) : s.airKept g := by
  intro m
  rw [h]
  rfl

theorem State.carrierMoved.ends {t : State} {spentToo : Bool} {d : Carrier} (h : g.carrierMoved t n c r spentToo d)
    (l : Link) (kind tag : Byte) (result : List Byte) :
    g.carrierMoved (t.ends l kind tag result) n c r spentToo d := by
  obtain ⟨hrecord, hzones, halerts, hoverflow, hcapture, hmore, hwatch, hclaims⟩ := h
  exact ⟨hrecord, by simpa using hzones, by simpa using halerts, by simpa using hoverflow, by simpa using hcapture,
    by simpa using hmore, by simpa using hwatch, by simpa using hclaims⟩

/-- A refused carrier request: the settle stands (R68, R70). -/
theorem refused_atEight {u : State} (kind tag st : Byte) (extra : List Byte) (hc : s.carrier n = some c)
    (hu : (s.settledAtEight l i n).capturesOnly u) :
    (u.refuseCarrier n
          (decide (c.life ≠ (s.settled c).1.life) || decide (c.bakeCount ≠ (s.settled c).1.bakeCount)) st extra).1.ends l
        kind tag
        (u.refuseCarrier n
          (decide (c.life ≠ (s.settled c).1.life) || decide (c.bakeCount ≠ (s.settled c).1.bakeCount)) st extra).2 =
      u.refusesAtEight l kind tag n c (s.settled c).1 st extra := by
  obtain ⟨-, -, -, -, -, -, -, -, hstamp, -⟩ := s.settled_kept c
  refine State.refuseCarrier_eq l kind tag st extra ?_ hstamp
  rw [hu]
  exact State.settledAtEight_same hc

/-- `t` is what a carrier request leaves that moves carrier `n`, whose record was `c`, from `g` to a residence. -/
structure MovedAtEight (s g t : State) (l : Link) (i : Instr) (kind tag : Byte) (n : Nat) (c : Carrier) (r : Residence)
    (d : Carrier) : Prop where
  record : t.carrier n = some d
  parent : d.parent = r.parent
  packed : d.packed = r.packed
  zone : d.zone = r.zone
  mode : d.mode = r.mode
  stamp : d.stamp = nextStamp c.stamp
  hold : d.hold = c.hold
  moved : g.carrierMoved t n c r false d
  claims : t.claims = (s.stepEight l i (.carrier n)).claims
  others : ∀ m, m ≠ n → t.carrier m = s.carrier m
  air : s.airKept t
  only : s.movesOnly t
  hand : (t.link l).hand =
    some (.replying
      ([kind + 0x80, tag, 0x00] ++ u16 (nextStamp c.stamp) ++ [lifeCode d.life] ++ orNone r.zone ++ [modeCode r.mode]))

/-- An accepted carrier request moves its carrier once and answers DONE with zone and mode (R4, R68, R156). -/
theorem movedReply_movedAtEight (kind tag : Byte) (r : Residence) (hc : s.carrier n = some c)
    (hg : (s.settledAtEight l i n).capturesOnly g) :
    ∃ d, MovedAtEight s g
      ((g.movedReply n (s.settled c).1 r).1.ends l kind tag (g.movedReply n (s.settled c).1 r).2) l i kind tag n c r d := by
  obtain ⟨-, -, -, kzone, kmode, -, -, khold, kstamp, -⟩ := s.settled_kept c
  have hgk : g.carrier n = some (s.settled c).1 := by
    rw [hg]
    exact State.settledAtEight_same hc
  obtain ⟨d, hd, dparent, dpacked, dzone, dmode, dstamp, dhold, -, hmoved⟩ :=
    State.moveCarrier_record (r := r) hgk kzone kmode kstamp
  obtain ⟨t, ht⟩ : ∃ t, t = g.moveCarrier n (s.settled c).1 r := ⟨_, rfl⟩
  have hreply : g.movedReply n (s.settled c).1 r =
      (t, [0x00] ++ u16 (nextStamp c.stamp) ++ [lifeCode d.life] ++ orNone r.zone ++ [modeCode r.mode]) := by
    rw [State.movedReply, ← ht]
    rw [← ht] at hd
    simp only [State.doneMoved, State.pastStep8, hd, dzone, dmode, dstamp]
    simp [stDone]
  rw [hreply]
  rw [← ht] at hd hmoved
  refine ⟨d, by rw [State.ends_carrier]; exact hd, dparent, dpacked, dzone, dmode, dstamp, dhold.trans khold,
    hmoved.ends .., ?_, fun m hm => ?_, ?_, ?_, ?_⟩
  case refine_1 =>
    rw [State.ends_claims, ht, State.moveCarrier_eta, hg, State.settledAtEight_eta]
  case refine_2 =>
    have hgm : g.carrier m = s.carrier m := by
      rw [hg]
      exact State.settledAtEight_others hm
    rw [State.ends_carrier, ht, State.moveCarrier_others hgk hm, hgm]
  case refine_3 =>
    have hair : s.airKept t := ht ▸
      State.airKept_trans (State.airKept_trans State.settledAtEight_airKept hg.airKept)
        (g.airKept_moveCarrier n (s.settled c).1 r)
    exact fun m => by rw [State.ends_zone]; exact hair m
  case refine_4 =>
    have honly : s.movesOnly t := ht ▸
      (State.settledAtEight_movesOnly.trans hg.movesOnly).trans (g.movesOnly_moveCarrier n (s.settled c).1 r)
    exact honly.trans (t.movesOnly_ends ..)
  case refine_5 =>
    refine (congrArg LinkState.hand (t.ends_link ..)).trans ?_
    simp

end SettledAtEight

end Sys2Proof.Machine

/-! PROOFS. OPEN, PLACE and PACK of a carrier (R79 to R82). -/

namespace Sys2Proof.Machine

-- One proof after another: elaborated side by side, so many short ones outgrow the memory a compile may take.
set_option Elab.async false

open Sys2Proof

section Requests

variable {g : State} {l : Link} {label : Label} {n x z : Nat} {k : Carrier} {changed : Bool}

theorem openAt_nested (h : Parent.container? k.parent ≠ none) :
    openAt l label x n k changed g = g.refuseCarrier n changed 0x19 [] := by
  rw [openAt, if_pos (by rwa [Option.isSome_iff_ne_none])]
  rfl

theorem openAt_refused {u : State} {st : Byte} {extra : List Byte} (h : Parent.container? k.parent = none)
    (he : g.enterCarrier l label x k.life (decide (k.hold ≠ 0)) (decide (g.locOfParent k.parent ≠ some x)) =
      .refused u st extra) :
    openAt l label x n k changed g = u.refuseCarrier n changed st extra := by
  rw [openAt, if_neg (by simp [h]), he]

theorem openAt_admitted {u : State} (h : Parent.container? k.parent = none)
    (he : g.enterCarrier l label x k.life (decide (k.hold ≠ 0)) (decide (g.locOfParent k.parent ≠ some x)) =
      .admitted u z) :
    openAt l label x n k changed g =
      u.movedReply n k
        { parent := some (.place z x), packed := false, zone := some z, mode := u.modeIn (some z) false } := by
  rw [openAt, if_neg (by simp [h]), he]

/-- The conditions of OPEN after the settle (R79). -/
def openSettled (l : Link) (label : Label) (loc : Option Nat) (n : Nat) (k : Carrier) (changed : Bool) : Owner :=
  fun g =>
    if !k.packed then g.refuseCarrier n changed stState []
    else
      match loc with
      | none => openInPlace n k changed g
      | some x => openAt l label x n k changed g

theorem openCarrier_eq (loc : Option Nat) : openCarrier l label loc n = withSettled n (openSettled l label loc n) := rfl

theorem openSettled_unpacked (loc : Option Nat) (h : k.packed = false) :
    openSettled l label loc n k changed g = g.refuseCarrier n changed 0x18 [] := if_pos (by simp [h])

theorem openSettled_here (h : k.packed = true) :
    openSettled l label none n k changed g = openInPlace n k changed g := if_neg (by simp [h])

theorem openSettled_at (h : k.packed = true) :
    openSettled l label (some x) n k changed g = openAt l label x n k changed g := if_neg (by simp [h])

/-- The conditions of PLACE after the settle (R80). -/
def placeSettled (l : Link) (label : Label) (x n : Nat) (k : Carrier) (changed : Bool) : Owner := fun g =>
  if (Parent.container? k.parent).isSome then g.refuseCarrier n changed stNested []
  else
    match g.enterCarrier l label x k.life (decide (k.hold ≠ 0)) (decide (g.locOfParent k.parent ≠ some x)) with
    | .refused u st extra => u.refuseCarrier n changed st extra
    | .admitted u z => placeAdmitted x n k changed z u

theorem placeCarrier_eq : placeCarrier l label x n = withSettled n (placeSettled l label x n) := rfl

theorem placeSettled_nested (h : Parent.container? k.parent ≠ none) :
    placeSettled l label x n k changed g = g.refuseCarrier n changed 0x19 [] := by
  rw [placeSettled, if_pos (by rwa [Option.isSome_iff_ne_none])]
  rfl

theorem placeSettled_refused {u : State} {st : Byte} {extra : List Byte} (h : Parent.container? k.parent = none)
    (he : g.enterCarrier l label x k.life (decide (k.hold ≠ 0)) (decide (g.locOfParent k.parent ≠ some x)) =
      .refused u st extra) :
    placeSettled l label x n k changed g = u.refuseCarrier n changed st extra := by
  rw [placeSettled, if_neg (by simp [h]), he]

theorem placeSettled_admitted {u : State} (h : Parent.container? k.parent = none)
    (he : g.enterCarrier l label x k.life (decide (k.hold ≠ 0)) (decide (g.locOfParent k.parent ≠ some x)) =
      .admitted u z) :
    placeSettled l label x n k changed g = placeAdmitted x n k changed z u := by
  rw [placeSettled, if_neg (by simp [h]), he]

/-- The condition of PACK after the settle (R82). -/
def packSettled (n : Nat) (k : Carrier) (changed : Bool) : Owner := fun g =>
  if k.packed then g.refuseCarrier n changed stState []
  else g.movedReply n k { parent := k.parent, packed := true, zone := k.zone, mode := .still }

theorem packCarrier_eq : packCarrier n = withSettled n (packSettled n) := rfl

end Requests

section Opened

variable {s : State} {l : Link} {tag : Byte} {label : Label} {stamp loc : Option Half} {n : Nat} {c : Carrier}

theorem entry_captures {i : Instr} {x : Nat} {e : Entry} {life : Life} {held arrival : Bool}
    (he : (s.settledAtEight l i n).enterCarrier l label x life held arrival = e) :
    (s.settledAtEight l i n).capturesOnly e.state := he ▸ State.enterCarrier_only ..

/-- The entry test of the settled record is that of the record the request found. -/
theorem entry_settled {i : Instr} {x : Nat} {e : Entry}
    (he : (s.settledAtEight l i n).enterCarrier l label x (s.settled c).1.life (decide (c.hold ≠ 0))
      (decide (s.locOfParent c.parent ≠ some x)) = e) :
    (s.settledAtEight l i n).enterCarrier l label x (s.settled c).1.life (decide ((s.settled c).1.hold ≠ 0))
      (decide ((s.settledAtEight l i n).locOfParent (s.settled c).1.parent ≠ some x)) = e := by
  obtain ⟨-, -, kparent, -, -, -, -, khold, -⟩ := s.settled_kept c
  rw [khold, kparent, State.settledAtEight_locOfParent]
  exact he

theorem entry_modeIn {i : Instr} {g : State} (h : (s.settledAtEight l i n).capturesOnly g) (zone : Option Nat)
    (packed : Bool) : g.modeIn zone packed = s.modeIn zone packed :=
  (State.airKept_modeIn h.airKept zone packed).trans (State.airKept_modeIn State.settledAtEight_airKept zone packed)

theorem entry_locOfParent {i : Instr} {g : State} (h : (s.settledAtEight l i n).capturesOnly g) (p : Option Parent) :
    g.locOfParent p = s.locOfParent p := by
  refine Eq.trans ?_ (State.settledAtEight_locOfParent (l := l) (i := i) (n := n) p)
  rw [h]
  rfl

/-- An OPEN that passes the checks is its conditions on the settled record. -/
theorem exec_openItem_carrier {i : Instr} {q : State × List Byte} (hi : i = .openItem l tag label stamp loc)
    (hg : s.grants l i = true) (hp : s.passes l label (stampOperand stamp) (.carrier n)) (hc : s.carrier n = some c)
    (hq : openSettled l label (locOperand loc) n (s.settled c).1
      (decide (c.life ≠ (s.settled c).1.life) || decide (c.bakeCount ≠ (s.settled c).1.bakeCount))
      (s.settledAtEight l i n) = q) :
    exec i s = .next (q.1.ends l 0x11 tag q.2) := by
  subst hi
  refine (serve_carrier (f := openCarrier l label (locOperand loc)) (g := openContainer l (locOperand loc)) rfl hg
    hp).trans ?_
  rw [openCarrier_eq, withSettled_stepEight _ hc, hq]
  rfl

theorem exec_openItem_refused {i : Instr} {u : State} {st : Byte} {extra : List Byte}
    (hi : i = .openItem l tag label stamp loc) (hg : s.grants l i = true)
    (hp : s.passes l label (stampOperand stamp) (.carrier n)) (hc : s.carrier n = some c)
    (hu : (s.settledAtEight l i n).capturesOnly u)
    (hq : openSettled l label (locOperand loc) n (s.settled c).1
      (decide (c.life ≠ (s.settled c).1.life) || decide (c.bakeCount ≠ (s.settled c).1.bakeCount))
      (s.settledAtEight l i n) =
        u.refuseCarrier n
          (decide (c.life ≠ (s.settled c).1.life) || decide (c.bakeCount ≠ (s.settled c).1.bakeCount)) st extra) :
    exec i s = .next (u.refusesAtEight l 0x11 tag n c (s.settled c).1 st extra) :=
  (exec_openItem_carrier hi hg hp hc hq).trans (congrArg Host.Outcome.next (refused_atEight _ _ _ _ hc hu))

/-- A PLACE that passes the checks is its conditions on the settled record. -/
theorem exec_place_carrier {i : Instr} {stamp loc : Half} {q : State × List Byte} (hi : i = .place l tag label stamp loc)
    (hg : s.grants l i = true) (hp : s.passes l label stamp.toNat (.carrier n)) (hc : s.carrier n = some c)
    (hq : placeSettled l label loc.toNat n (s.settled c).1
      (decide (c.life ≠ (s.settled c).1.life) || decide (c.bakeCount ≠ (s.settled c).1.bakeCount))
      (s.settledAtEight l i n) = q) :
    exec i s = .next (q.1.ends l 0x12 tag q.2) := by
  subst hi
  refine (serve_carrier (f := placeCarrier l label loc.toNat) (g := placeContainer l label loc.toNat) rfl hg hp).trans ?_
  rw [placeCarrier_eq, withSettled_stepEight _ hc, hq]
  rfl

theorem exec_place_refused {i : Instr} {stamp loc : Half} {u : State} {st : Byte} {extra : List Byte}
    (hi : i = .place l tag label stamp loc) (hg : s.grants l i = true) (hp : s.passes l label stamp.toNat (.carrier n))
    (hc : s.carrier n = some c) (hu : (s.settledAtEight l i n).capturesOnly u)
    (hq : placeSettled l label loc.toNat n (s.settled c).1
      (decide (c.life ≠ (s.settled c).1.life) || decide (c.bakeCount ≠ (s.settled c).1.bakeCount))
      (s.settledAtEight l i n) =
        u.refuseCarrier n
          (decide (c.life ≠ (s.settled c).1.life) || decide (c.bakeCount ≠ (s.settled c).1.bakeCount)) st extra) :
    exec i s = .next (u.refusesAtEight l 0x12 tag n c (s.settled c).1 st extra) :=
  (exec_place_carrier hi hg hp hc hq).trans (congrArg Host.Outcome.next (refused_atEight _ _ _ _ hc hu))

end Opened

/-- Settles O40: an accepted request is one `movedReply` from the state its entry left, a refused one `refuseCarrier`, each
after the settle of step 8. -/
theorem carrierIsMoved : Obligations.CarrierIsMoved := by
  refine ⟨?_, ?_, ?_⟩
  case refine_1 =>
    rintro s g g0 l tag label stamp loc n c k r i hi hg hp hc rfl rfl
    rw [← State.settledAtEight]
    obtain ⟨-, kpacked, kparent, kzone, kmode, -, -, khold, -⟩ := s.settled_kept c
    refine ⟨fun hpacked h => ?_, fun hpacked => ?_, fun hpacked hl hparent => ?_, fun hpacked hl hparent hlife hmode hbake => ?_,
      fun hpacked hl hparent => ?_, fun x u st extra hpacked hl hparent he => ?_⟩
    case refine_1 =>
      obtain ⟨hcaptures, hrpacked, hopen⟩ : (s.settledAtEight l i n).capturesOnly g ∧ r.packed = false ∧
          openSettled l label (locOperand loc) n (s.settled c).1
            (decide (c.life ≠ (s.settled c).1.life) || decide (c.bakeCount ≠ (s.settled c).1.bakeCount))
            (s.settledAtEight l i n) = g.movedReply n (s.settled c).1 r := by
        rcases h with ⟨rfl, hparent, rfl, rfl, hbars⟩ | ⟨x, z, rfl, hparent, he, rfl⟩
        · refine ⟨State.capturesOnly_refl _, rfl, (openSettled_here (kpacked.trans hpacked)).trans ?_⟩
          rw [openInPlace, kparent, kzone, kmode, if_neg hparent, State.settledAtEight_modeUnder, if_neg hbars]
        · have hcaptures : (s.settledAtEight l i n).capturesOnly g := entry_captures he
          refine ⟨hcaptures, rfl, (openSettled_at (kpacked.trans hpacked)).trans ?_⟩
          rw [openAt_admitted (kparent.symm ▸ hparent) (entry_settled he), entry_modeIn hcaptures]
      obtain ⟨d, hd⟩ := movedReply_movedAtEight 0x11 tag r hc hcaptures
      exact ⟨_, d, exec_openItem_carrier hi hg hp hc hopen, hd.record, hd.parent, hd.packed.trans hrpacked, hd.zone,
        hd.mode, hd.stamp, hd.hold, hd.moved, hd.claims, hd.others, hd.air, hd.only, hd.hand⟩
    case refine_2 =>
      exact exec_openItem_refused hi hg hp hc (State.capturesOnly_refl _) (openSettled_unpacked _ (kpacked.trans hpacked))
    case refine_3 =>
      refine exec_openItem_refused hi hg hp hc (State.capturesOnly_refl _) ?_
      rw [hl]
      refine (openSettled_here (kpacked.trans hpacked)).trans ?_
      rw [openInPlace, if_pos (kparent.trans hparent)]
      rfl
    case refine_4 =>
      refine exec_openItem_refused hi hg hp hc (State.capturesOnly_refl _) ?_
      rw [hl]
      refine (openSettled_here (kpacked.trans hpacked)).trans ?_
      rw [openInPlace, if_neg (by rwa [kparent]), kparent, kzone, kmode, State.settledAtEight_modeUnder,
        if_pos ⟨hlife, hmode, hbake⟩, hlife]
      rfl
    case refine_5 =>
      obtain ⟨x, hx⟩ := Option.ne_none_iff_exists'.1 hl
      refine exec_openItem_refused hi hg hp hc (State.capturesOnly_refl _) ?_
      rw [hx]
      exact (openSettled_at (kpacked.trans hpacked)).trans (openAt_nested (by rwa [kparent]))
    case refine_6 =>
      refine exec_openItem_refused hi hg hp hc (entry_captures he) ?_
      rw [hl]
      exact (openSettled_at (kpacked.trans hpacked)).trans
        (openAt_refused (kparent.symm ▸ hparent) (entry_settled he))
  case refine_2 =>
    rintro s g0 l tag label stamp loc n c k i hi hg hp hc rfl rfl
    rw [← State.settledAtEight]
    obtain ⟨-, kpacked, kparent, -, -, -, -, -, kstamp, -⟩ := s.settled_kept c
    refine ⟨fun hparent => ?_, fun u st extra hparent he => ?_, fun g z r hparent he hr => ⟨fun hloc => ?_, fun hloc => ?_⟩⟩
    case refine_1 =>
      exact exec_place_refused hi hg hp hc (State.capturesOnly_refl _) (placeSettled_nested (by rwa [kparent]))
    case refine_2 =>
      exact exec_place_refused hi hg hp hc (entry_captures he)
        (placeSettled_refused (kparent.symm ▸ hparent) (entry_settled he))
    case refine_3 =>
      have hcaptures : (s.settledAtEight l i n).capturesOnly g := entry_captures he
      have hplace : placeSettled l label loc.toNat n (s.settled c).1
          (decide (c.life ≠ (s.settled c).1.life) || decide (c.bakeCount ≠ (s.settled c).1.bakeCount))
          (s.settledAtEight l i n) = g.movedReply n (s.settled c).1 r := by
        rw [placeSettled_admitted (kparent.symm ▸ hparent) (entry_settled he), placeAdmitted,
          entry_locOfParent hcaptures, kparent, kpacked, if_neg hloc, entry_modeIn hcaptures, hr]
      obtain ⟨d, hd⟩ := movedReply_movedAtEight 0x12 tag r hc hcaptures
      have hzone : d.zone = some z := hd.zone.trans (by rw [hr])
      refine ⟨_, d, exec_place_carrier hi hg hp hc hplace, hd.record, hd.parent, hd.packed.trans (by rw [hr]), hzone,
        hd.mode, hd.stamp, hd.hold, hd.moved, hd.claims, hd.others, hd.air, hd.only, ?_⟩
      rw [← hzone, hd.zone, hd.mode]
      exact hd.hand
    case refine_4 =>
      have hcaptures : (s.settledAtEight l i n).capturesOnly g := entry_captures he
      obtain ⟨b, hb⟩ : ∃ b, b = (decide (c.life ≠ (s.settled c).1.life) ||
        decide (c.bakeCount ≠ (s.settled c).1.bakeCount)) := ⟨_, rfl⟩
      have hgk : g.carrier n = some (s.settled c).1 := by
        rw [hcaptures]
        exact State.settledAtEight_same hc
      obtain ⟨t, ht⟩ : ∃ t, t = g.bumpCarrierIf n b := ⟨_, rfl⟩
      have heta : t = { g with carriers := t.carriers } := ht ▸ g.bumpCarrierIf_eta n b
      obtain ⟨d, hd⟩ : ∃ d, d = { (s.settled c).1 with
          stamp := if c.life ≠ (s.settled c).1.life ∨ c.bakeCount ≠ (s.settled c).1.bakeCount then nextStamp c.stamp
            else c.stamp } := ⟨_, rfl⟩
      have htd : t.carrier n = some d := by
        rw [ht, State.carrier_bumpCarrierIf, if_pos rfl, hgk, Option.map_some, hd, hb, kstamp]
        simp only [Bool.or_eq_true, decide_eq_true_eq]
      have hplace : placeSettled l label loc.toNat n (s.settled c).1
          (decide (c.life ≠ (s.settled c).1.life) || decide (c.bakeCount ≠ (s.settled c).1.bakeCount))
          (s.settledAtEight l i n) =
            (t, [0x00] ++ u16 d.stamp ++ [lifeCode d.life] ++ orNone d.zone ++ [modeCode d.mode]) := by
        rw [placeSettled_admitted (kparent.symm ▸ hparent) (entry_settled he), placeAdmitted,
          entry_locOfParent hcaptures, kparent, if_pos hloc, ← hb, ← ht]
        simp only [State.doneMoved, State.pastStep8, htd]
        simp [stDone]
      refine ⟨_, d, exec_place_carrier hi hg hp hc hplace, by rw [State.ends_carrier, htd], hd, ?_, ?_, ?_, ?_, ?_, ?_, ?_,
        fun m hm => ?_, fun m => ?_, ?_, ?_⟩
      case refine_1 => rw [State.ends_alerts, heta]
      case refine_2 => rw [State.ends_overflow, heta]
      case refine_3 => rw [State.ends_zones, heta]
      case refine_4 => rw [State.ends_capture, heta]
      case refine_5 => rw [State.ends_moreFaults, heta]
      case refine_6 => rw [State.ends_watch, heta]
      case refine_7 => rw [State.ends_claims, heta, hcaptures, State.settledAtEight_eta]
      case refine_8 =>
        rw [State.ends_carrier, ht, State.carrier_bumpCarrierIf, if_neg hm, hcaptures]
        exact State.settledAtEight_others hm
      case refine_9 =>
        have hair : s.airKept g := State.airKept_trans State.settledAtEight_airKept hcaptures.airKept
        rw [State.ends_zone, heta]
        exact hair m
      case refine_10 =>
        have honly : s.movesOnly g := State.settledAtEight_movesOnly.trans hcaptures.movesOnly
        have hgt : g.movesOnly t := by
          unfold State.movesOnly
          rw [heta]
        exact (honly.trans hgt).trans (t.movesOnly_ends ..)
      case refine_11 =>
        refine (congrArg LinkState.hand (t.ends_link ..)).trans ?_
        simp
  case refine_3 =>
    rintro s g0 l tag label stamp n c k r i hi hg hp hc rfl rfl hr
    rw [← State.settledAtEight]
    obtain ⟨-, kpacked, kparent, kzone, -⟩ := s.settled_kept c
    have hexec {q : State × List Byte} (hq : packSettled n (s.settled c).1
        (decide (c.life ≠ (s.settled c).1.life) || decide (c.bakeCount ≠ (s.settled c).1.bakeCount))
        (s.settledAtEight l i n) = q) : exec i s = .next (q.1.ends l 0x13 tag q.2) := by
      subst hi
      refine (serve_carrier (f := packCarrier) (g := packContainer l) rfl hg hp).trans ?_
      rw [packCarrier_eq, withSettled_stepEight _ hc, hq]
      rfl
    refine ⟨fun hpacked => ?_, fun hpacked => ?_⟩
    · refine (hexec (if_pos (kpacked.trans hpacked))).trans ?_
      exact congrArg Host.Outcome.next (refused_atEight _ _ _ _ hc (State.capturesOnly_refl _))
    · obtain ⟨d, hd⟩ := movedReply_movedAtEight 0x13 tag r hc (State.capturesOnly_refl (s.settledAtEight l i n))
      have hpack : packSettled n (s.settled c).1
          (decide (c.life ≠ (s.settled c).1.life) || decide (c.bakeCount ≠ (s.settled c).1.bakeCount))
          (s.settledAtEight l i n) = (s.settledAtEight l i n).movedReply n (s.settled c).1 r := by
        rw [packSettled, if_neg (by simp [kpacked, hpacked]), kparent, kzone, hr]
      subst hr
      exact ⟨_, d, hexec hpack, hd.record, hd.parent, hd.packed, hd.zone, hd.mode, hd.stamp, hd.hold, hd.moved, hd.claims,
        hd.others, hd.air, hd.only, hd.hand⟩

end Sys2Proof.Machine

/-! PROOFS. Reading (R48, R58, R86, R87, R104, R118, R141): nothing but a LOOKUP's settle and ZONEINFO's clearing changes. -/

namespace Sys2Proof.Machine

-- One proof after another: elaborated side by side, so many short ones outgrow the memory a compile may take.
set_option Elab.async false

open Sys2Proof

/-- The greatest count that fits fits, and none above it does (R184). -/
theorem fitCount_greatest (f : Nat → Nat) (bound : Nat) :
    (fitCount f bound ≠ 0 → f (fitCount f bound) ≤ 240) ∧ ∀ m, fitCount f bound < m → m ≤ bound → 240 < f m := by
  induction bound with
  | zero => exact ⟨fun h => absurd rfl h, fun m hm hle => absurd (Nat.lt_of_lt_of_le hm hle) (Nat.lt_irrefl _)⟩
  | succ n ih =>
    obtain ⟨hfits, hnone⟩ := ih
    rw [fitCount]
    split
    next hfit => exact ⟨fun _ => hfit, fun m hm hle => absurd (Nat.lt_of_lt_of_le hm hle) (Nat.lt_irrefl _)⟩
    next hover =>
      refine ⟨hfits, fun m hm hle => ?_⟩
      rcases Nat.lt_or_eq_of_le hle with hlt | rfl
      · exact hnone m hm (Nat.lt_succ_iff.1 hlt)
      · exact Nat.not_le.1 hover

section Granted

variable (s : State) (l : Link) (i : Instr)

theorem State.granted_encContainer (n : Nat) (c : Container) (start : Nat) :
    (s.granted l i).encContainer n c start = s.encContainer n c start := by
  cases l <;> rfl

theorem State.granted_encResidents (zone start m : Nat) :
    (s.granted l i).encResidents zone start m = s.encResidents zone start m := by
  cases l <;> rfl

theorem State.granted_encBatches (start m : Nat) :
    (s.granted l i).encBatches start m = s.encBatches start m := by
  cases l <;> rfl

theorem State.granted_residentsCount (zone start : Nat) :
    (s.granted l i).residentsCount zone start = s.residentsCount zone start := by
  cases l <;> rfl

theorem State.granted_batchesCount (start : Nat) : (s.granted l i).batchesCount start = s.batchesCount start := by
  cases l <;> rfl

end Granted

/-- Settles O47: each reply is its owner's in the state the grant gives, which reads as the request found it. -/
theorem queriesRead : Obligations.QueriesRead := by
  refine ⟨?_, fun s l tag zone hg => ?_, ?_, ?_,
    fun f bound => ⟨fitCount_le f bound, fitCount_greatest f bound⟩, fun s tag cls hg => ?_⟩
  case refine_1 =>
    rintro s l tag label start i hi hg
    have hexec {q : State × List Byte} (hq : ownLookup label start (s.granted l i) = q) :
        exec i s = .next (q.1.ends l 0x20 tag q.2) := by
      subst hi
      refine (serve_granted (own := ownLookup label start) rfl hg).trans ?_
      rw [hq]
      rfl
    have hfind : (s.granted l i).find label = s.find label := by simp
    refine ⟨fun hf => hexec (q := (_, _)) ?_, fun n c u hf hu hc => hexec (q := (u, _)) ?_,
      fun n c hf hc => hexec (q := (_, _)) ?_⟩
    case refine_1 =>
      rw [ownLookup, hfind, hf]
      rfl
    case refine_2 =>
      rw [ownLookup, hfind, hf]
      simp only [lookupCarrier, ← hu, hc, State.pastStep8]
      rfl
    case refine_3 =>
      have hgc : (s.granted l i).container n = some c := by simpa using hc
      rw [ownLookup, hfind, hf]
      simp only [lookupContainer, hgc, State.granted_encContainer, State.pastStep8, State.stampOf, Option.map_some,
        Option.getD_some]
      rfl
  case refine_2 =>
    refine (serve_granted (own := ownZoneInfo zone) rfl hg).trans ?_
    cases l <;> rfl
  case refine_3 =>
    rintro s tag zone start i rs n body rfl hg hrs hn hbody
    have hbody' (m : Nat) : body m = s.encResidents zone.toNat start.toNat m := by
      rw [hbody, hrs]
      rfl
    have hbound : n = fitCount (fun m => 2 + (body m).length) (min 16 rs.length) := by
      simp only [hbody', hrs]
      exact hn
    have hle := fitCount_le (fun m => 2 + (body m).length) (min 16 rs.length)
    refine ⟨by omega, by omega, hbound, ?_⟩
    refine (serve_granted (own := ownResidents zone start) rfl hg).trans ?_
    rw [ownResidents, State.granted_residentsCount, State.granted_encResidents, ← hn, ← hbody']
    rfl
  case refine_4 =>
    rintro s tag start i bs n body rfl hg hbs hn hbody
    have hbody' (m : Nat) : body m = s.encBatches (start.getD 0).toNat m := by
      rw [hbody, hbs]
      rfl
    have hbound : n = fitCount (fun m => 2 + (body m).length) bs.length := by
      simp only [hbody', hbs, List.length_drop]
      exact hn
    refine ⟨hbound ▸ fitCount_le .., hbound, ?_⟩
    refine (serve_granted (own := ownBatchInfo start) rfl hg).trans ?_
    rw [ownBatchInfo, State.granted_batchesCount, State.granted_encBatches, ← hn, ← hbody']
    rfl
  case refine_5 =>
    refine (serve_granted (own := ownClassInfo cls) rfl hg).trans ?_
    rw [ownClassInfo, State.granted_cls]
    rfl

end Sys2Proof.Machine

/-! PROOFS. SETCLASS (R50 to R57) and EVACUATE (R127). -/

namespace Sys2Proof.Machine

-- One proof after another: elaborated side by side, so many short ones outgrow the memory a compile may take.
set_option Elab.async false

open Sys2Proof

theorem State.setCls_setCls (s : State) (n : Nat) (a b : ClassRec) : (s.setCls n a).setCls n b = s.setCls n b := by
  simp [State.setCls]

/-- A revision of a class in use stores its values and counts it as pending (R55). -/
theorem State.storeClass_revisions {g : State} {job : BatchJob} {l : Link} {walk ks : List Nat} {n : Nat}
    {old v : ClassValues} (hv : (g.cls n).values = some old) :
    let u := (g.acceptBatch job l walk ks).storeClass n v
    u.setCls n { u.cls n with revisions := (u.cls n).revisions + 1 } =
      (g.acceptBatch job l walk ks).setCls n
        { g.cls n with values := some v, revisions := (g.cls n).revisions + 1 } := by
  have hcls : (g.acceptBatch job l walk ks).cls n = g.cls n := by
    rw [State.acceptBatch_eta]
    rfl
  have hlt : n < (g.acceptBatch job l walk ks).classes.length := State.lt_of_values (by rw [hcls, hv])
  intro u
  have hu : u.cls n = { g.cls n with values := some v } := by
    refine (State.cls_setCls ..).trans ?_
    rw [if_pos ⟨rfl, hlt⟩, hcls]
  rw [hu]
  exact State.setCls_setCls ..

/-- Settles O48: the three owners' branches. -/
theorem classIsSet : Obligations.ClassIsSet := by
  refine ⟨fun s tag cls f i hi ht hq => ?_, fun s tag cls f i hi hg hq => ?_, fun s tag cls f i hi hg hq => ?_,
    fun s tag cls i hi hg hq => ?_⟩
  case refine_1 =>
    rcases hi with rfl | rfl | rfl
    · have hown : ownSetClassDefine cls f (s.holding .host (.setClassDefine .host tag cls f)) =
          (s.holding .host (.setClassDefine .host tag cls f), [0x23]) := if_pos hq
      refine (serve_taken (own := ownSetClassDefine cls f) rfl ht).trans ?_
      rw [hown]
      rfl
    · have hown : ownSetClassRevise .host cls f (s.holding .host (.setClassRevise .host tag cls f)) =
          (s.holding .host (.setClassRevise .host tag cls f), [0x23]) := if_pos hq
      refine (serve_taken (own := ownSetClassRevise .host cls f) rfl ht).trans ?_
      rw [hown]
      rfl
    · have hown : ownSetClassUndefine cls (s.holding .host (.setClassUndefine .host tag cls)) =
          (s.holding .host (.setClassUndefine .host tag cls), [0x23]) := if_pos hq
      refine (serve_taken (own := ownSetClassUndefine cls) rfl ht).trans ?_
      rw [hown]
      rfl
  case refine_2 =>
    have hexec {q : State × List Byte} (hown : ownSetClassDefine cls f (s.granted .host i) = q) :
        exec i s = .next (q.1.ends .host 0x31 tag q.2) := by
      subst hi
      refine (serve_granted (own := ownSetClassDefine cls f) rfl hg).trans ?_
      rw [hown]
      rfl
    have hcls : (s.granted .host i).cls cls.toNat = s.cls cls.toNat := s.granted_cls ..
    have hactive : ¬((s.granted .host i).quiesce ≠ .active) := by simp [hq]
    refine ⟨fun hv => hexec (q := (_, _)) ?_, fun hv => hexec (q := (_, _)) ?_⟩
    · rw [ownSetClassDefine, if_neg hactive, hcls, if_pos (by rwa [Option.isSome_iff_ne_none])]
      rfl
    · rw [ownSetClassDefine, if_neg hactive, hcls, if_neg (by simp [hv]), State.storeClass, hcls]
      rfl
  case refine_3 =>
    have hexec {q : State × List Byte} (hown : ownSetClassRevise .host cls f (s.granted .host i) = q) :
        exec i s = .next (q.1.ends .host 0x31 tag q.2) := by
      subst hi
      refine (serve_granted (own := ownSetClassRevise .host cls f) rfl hg).trans ?_
      rw [hown]
      rfl
    obtain ⟨g, hgdef⟩ : ∃ g, g = s.granted .host i := ⟨_, rfl⟩
    have hcls : g.cls cls.toNat = s.cls cls.toNat := hgdef ▸ s.granted_cls ..
    have hactive : ¬(g.quiesce ≠ .active) := by simp [hgdef, hq]
    rw [← hgdef] at hexec ⊢
    refine ⟨fun hv => hexec (q := (_, _)) ?_, fun hv => hexec (q := (_, _)) ?_, fun old hv hne =>
      ⟨fun hu => hexec (q := (_, _)) ?_, fun hu hf => hexec (q := (_, _)) ?_, fun hu hf => hexec (q := (_, _)) ?_⟩⟩
    case refine_1 =>
      simp only [ownSetClassRevise, if_neg hactive, hcls, hv]
      rfl
    case refine_2 =>
      simp only [ownSetClassRevise, if_neg hactive, hcls, hv, if_true]
      rfl
    case refine_3 =>
      simp only [ownSetClassRevise, if_neg hactive, hcls, hv, if_neg hne, if_pos hu, State.storeClass]
      rfl
    case refine_4 =>
      have hbatches : 8 ≤ g.batches.length := by simpa [hgdef] using hf
      simp only [ownSetClassRevise, if_neg hactive, hcls, hv, if_neg hne, if_neg (Nat.ne_of_gt hu), reviseInUse,
        State.not_batchRoom, if_pos hbatches]
      rfl
    case refine_5 =>
      have hbatches : ¬(8 ≤ g.batches.length) := by simpa [hgdef] using hf
      have hnext : g.nextBatch = s.nextBatch := by rw [hgdef]; rfl
      simp only [ownSetClassRevise, if_neg hactive, hcls, hv, if_neg hne, if_neg (Nat.ne_of_gt hu), reviseInUse,
        State.not_batchRoom, if_neg hbatches, hnext]
      rw [State.storeClass_revisions (hcls.symm ▸ hv), hcls]
      rfl
  case refine_4 =>
    have hexec {q : State × List Byte} (hown : ownSetClassUndefine cls (s.granted .host i) = q) :
        exec i s = .next (q.1.ends .host 0x31 tag q.2) := by
      subst hi
      refine (serve_granted (own := ownSetClassUndefine cls) rfl hg).trans ?_
      rw [hown]
      rfl
    have hcls : (s.granted .host i).cls cls.toNat = s.cls cls.toNat := s.granted_cls ..
    have hactive : ¬((s.granted .host i).quiesce ≠ .active) := by simp [hq]
    refine ⟨fun hv => hexec (q := (_, _)) ?_, fun hv hu => hexec (q := (_, _)) ?_, fun hv hu hr => hexec (q := (_, _)) ?_,
      fun hv hu hr => hexec (q := (_, _)) ?_⟩
    · simp only [ownSetClassUndefine, if_neg hactive, hcls, if_pos hv]
      rfl
    · simp only [ownSetClassUndefine, if_neg hactive, hcls, if_neg hv, if_pos hu]
      rfl
    · simp only [ownSetClassUndefine, if_neg hactive, hcls, if_neg hv, hu, Nat.lt_irrefl, if_false, if_pos hr]
      rfl
    · simp only [ownSetClassUndefine, if_neg hactive, hcls, if_neg hv, hu, hr, Nat.lt_irrefl, if_false]
      rfl

/-! EVACUATE -/

section Evacuate

variable (g : State) (z target loc : Nat)

/-- Conditions 4 to 9 of EVACUATE, in their order (R127). -/
theorem evacuateTo_eq :
    evacuateTo .host z target loc g =
      if target = z then (g, [stState])
      else if (g.zone target).evacuating = true ∨ g.isBatchTarget z = true then (g, [stBusy])
      else if g.directCarriers z = [] ∧ g.directContainers z = [] then (g, [stDone])
      else if 8 ≤ g.batches.length then (g, [stFull])
      else if (∃ n ∈ g.evacuationWalk z, g.inTransit (.carrier n) = true) ∨
          ∃ n ∈ g.evacuationContainers z, g.inTransit (.container n) = true then (g, [stBusy])
      else queueEvacuate .host z target loc g := by
  have htransit : (((g.evacuationWalk z).any (fun n => g.inTransit (.carrier n)) ||
      (g.evacuationContainers z).any (fun n => g.inTransit (.container n))) = true) =
        ((∃ n ∈ g.evacuationWalk z, g.inTransit (.carrier n) = true) ∨
          ∃ n ∈ g.evacuationContainers z, g.inTransit (.container n) = true) := by simp
  simp only [evacuateTo, State.not_batchRoom, htransit]
  by_cases hbusy : (g.zone target).evacuating = true <;> simp [hbusy]

theorem queueEvacuate_eq :
    queueEvacuate .host z target loc g =
      ((g.acceptBatch (.evacuate z target loc) .host (g.evacuationWalk z) (g.evacuationContainers z)).setZone z
          { g.zone z with evacuating := true },
        [0x01] ++ u8 g.nextBatch ++ u8 target ++ yes (g.zone target).cfg.gated ++
          u16 (g.forecast target (g.evacuationWalk z))) := by
  have hzone : (g.acceptBatch (.evacuate z target loc) .host (g.evacuationWalk z) (g.evacuationContainers z)).zone z =
      g.zone z := by
    rw [State.acceptBatch_eta]
    rfl
  rw [queueEvacuate]
  simp only [State.modZone, hzone]
  rfl

end Evacuate

/-- Settles O46: the owner's branches in the granted state, which reads as the request found it. -/
theorem zoneIsEvacuated : Obligations.ZoneIsEvacuated := by
  rintro s tag zone loc z i walk cs no hi hg rfl rfl rfl hno
  obtain ⟨g, hgdef⟩ : ∃ g, g = s.granted .host i := ⟨_, rfl⟩
  have hexec {q : State × List Byte} (hown : ownEvacuate .host zone loc g = q) :
      exec i s = .next (q.1.ends .host 0x19 tag q.2) := by
    rw [hgdef] at hown
    subst hi
    refine (serve_granted (own := ownEvacuate .host zone loc) rfl hg).trans ?_
    rw [hown]
    rfl
  have hrefused {st : Byte} (hown : ownEvacuate .host zone loc g = (g, [st])) : exec i s = .next (no st) := by
    rw [hno, ← hgdef]
    exact hexec hown
  have hquiesce : g.quiesce = s.quiesce := by simp [hgdef]
  have hzone (n : Nat) : g.zone n = s.zone n := by simp [hgdef]
  have hmap : g.mapLoc loc.toNat = s.mapLoc loc.toNat := by simp [hgdef]
  have hbatches : g.batches = s.batches := by simp [hgdef]
  have hnext : g.nextBatch = s.nextBatch := by rw [hgdef]; rfl
  have htarget : g.isBatchTarget zone.toNat = s.isBatchTarget zone.toNat := by rw [hgdef]; rfl
  have hcarriers : g.directCarriers zone.toNat = s.directCarriers zone.toNat := by rw [hgdef]; rfl
  have hcontainers : g.directContainers zone.toNat = s.directContainers zone.toNat := by rw [hgdef]; rfl
  have hwalk : g.evacuationWalk zone.toNat = s.evacuationWalk zone.toNat := by rw [hgdef]; rfl
  have hscope : g.evacuationContainers zone.toNat = s.evacuationContainers zone.toNat := by rw [hgdef]; rfl
  have hforecast (t : Nat) (ns : List Nat) : g.forecast t ns = s.forecast t ns := by rw [hgdef]; rfl
  have htransit (it : Item) : g.inTransit it = s.inTransit it := by rw [hgdef]; cases it <;> rfl
  rw [← hgdef]
  refine ⟨fun hq => hrefused ?_, fun hq ha => hrefused ?_,
    fun hq ha hm => hexec (q := (g.raiseFault .unmapped .hostLink none (some loc.toNat) none, [0x17])) ?_,
    fun t hq ha hm => ?_⟩
  case refine_1 =>
    rw [ownEvacuate, hquiesce, if_pos hq]
    rfl
  case refine_2 =>
    rw [ownEvacuate, hquiesce, hzone, if_neg (by simp [hq]), ha]
    rfl
  case refine_3 =>
    rw [ownEvacuate, hquiesce, hzone, hmap, if_neg (by simp [hq]), ha, hm]
    rfl
  have hown : ownEvacuate .host zone loc g = evacuateTo .host zone.toNat t loc.toNat g := by
    rw [ownEvacuate, hquiesce, hzone, hmap, if_neg (by simp [hq]), ha, hm]
    rfl
  rw [evacuateTo_eq, hzone, htarget, hcarriers, hcontainers, hbatches, hwalk, hscope] at hown
  simp only [htransit] at hown
  refine ⟨fun ht => ?_, fun ht hbusy => ?_, fun ht he hb => ⟨fun hc hd => ?_, fun hsome hfull => ?_, fun hsome hroom =>
    ⟨fun hmoving => ?_, fun hc hd => ?_⟩⟩⟩
  · rw [if_pos ht] at hown
    exact hrefused hown
  all_goals rw [if_neg ht] at hown
  · rw [if_pos hbusy] at hown
    exact hrefused hown
  all_goals rw [if_neg (by simp [he, hb])] at hown
  · rw [if_pos ⟨hc, hd⟩] at hown
    exact hrefused hown
  all_goals rw [if_neg fun h => hsome.elim (fun h' => h' h.1) fun h' => h' h.2] at hown
  · rw [if_pos hfull] at hown
    exact hrefused hown
  all_goals rw [if_neg (Nat.not_le.2 hroom)] at hown
  · rw [if_pos hmoving] at hown
    exact hrefused hown
  · rw [if_neg (by simpa using ⟨hc, hd⟩), queueEvacuate_eq, hwalk, hscope, hzone, hzone, hnext, hforecast] at hown
    exact ⟨_, hexec hown, rfl⟩

end Sys2Proof.Machine

/-! PROOFS. CLAIM and RELEASE (R147 to R152). -/

namespace Sys2Proof.Machine

-- One proof after another: elaborated side by side, so many short ones outgrow the memory a compile may take.
set_option Elab.async false

open Sys2Proof

section Claims

variable {s u : State} {l : Link} {it : Item}

theorem State.settleStamped_eta (s : State) (n : Nat) :
    s.settleStamped n =
      { s with
        carriers := (s.settleStamped n).carriers
        zones := (s.settleStamped n).zones
        alerts := (s.settleStamped n).alerts
        overflow := (s.settleStamped n).overflow } := by
  unfold State.settleStamped
  dsimp only
  rw [State.bumpCarrierIf_eta, State.settle_eta]

/-- A settle leaves the claims and the settings (R149). -/
theorem State.settleItem_kept (s : State) (it : Item) :
    (s.settleItem it).claims = s.claims ∧ (s.settleItem it).settings = s.settings := by
  cases it with
  | carrier n =>
    rw [State.settleItem, State.settleStamped_eta]
    exact ⟨rfl, rfl⟩
  | container n => exact ⟨rfl, rfl⟩

theorem State.claimQuiesced_iff : s.claimQuiesced l = true ↔ l = .host ∧ s.quiesce ≠ .active := by
  simp [State.claimQuiesced]

theorem State.not_claimQuiesced (h : l = .floor ∨ s.quiesce = .active) : ¬s.claimQuiesced l = true := by
  rw [State.claimQuiesced_iff]
  rintro ⟨rfl, hq⟩
  exact h.elim (fun h => Link.noConfusion h) hq

theorem pastStep8_claims (u : State) (cs : List Claim) (st : Byte) (it : Item) :
    ({ u with claims := cs } : State).pastStep8 st it = u.pastStep8 st it := by
  cases it <;> rfl

/-- Steps 8 to 10 of CLAIM (R149). -/
theorem claimSettled_eq :
    claimSettled l it u =
      if u.claimOf it ≠ none then
        ({ u with
            claims := u.claims.map fun k => if k.item = it ∧ k.link = l then { k with seconds := u.claimLimit l } else k },
          u.pastStep8 0x00 it ++ u8 (u.claimLimit l))
      else if u.claims.length < 32 then
        ({ u with claims := u.claims ++ [{ item := it, link := l, seconds := u.claimLimit l }] },
          u.pastStep8 0x00 it ++ u8 (u.claimLimit l))
      else (u, u.pastStep8 0x15 it) := by
  have hsome : ((u.claimOf it).isSome = true) = (u.claimOf it ≠ none) := by rw [Option.isSome_iff_ne_none]
  have hlimit (cs : List Claim) : ({ u with claims := cs } : State).claimLimit l = u.claimLimit l := by cases l <;> rfl
  simp only [claimSettled, hsome, State.reloadClaim, State.makeClaim, State.claimDone, pastStep8_claims, hlimit]
  rfl

/-- Steps 7 and 8 of RELEASE (R152). -/
theorem releaseSettled_eq :
    releaseSettled it u =
      if u.claimOf it ≠ none then
        ({ u with claims := u.claims.filter fun k => k.item ≠ it }, u.pastStep8 0x00 it)
      else (u, u.pastStep8 0x18 it) := by
  have hsome : ((u.claimOf it).isSome = true) = (u.claimOf it ≠ none) := by rw [Option.isSome_iff_ne_none]
  simp only [releaseSettled, hsome, State.freeClaim, pastStep8_claims]
  rfl

end Claims

/-- Settles O49: the owners' branches in the granted state; the settle leaves the claims. -/
theorem claimAndRelease : Obligations.ClaimAndRelease := by
  refine ⟨?_, ?_⟩
  case refine_1 =>
    rintro s l tag label i limit hi hg hlimit
    obtain ⟨g, hgdef⟩ : ∃ g, g = s.granted l i := ⟨_, rfl⟩
    have hexec {q : State × List Byte} (hown : ownClaim l label g = q) : exec i s = .next (q.1.ends l 0x40 tag q.2) := by
      rw [hgdef] at hown
      subst hi
      refine (serve_granted (own := ownClaim l label) rfl hg).trans ?_
      rw [hown]
      rfl
    have hfind : g.find label = s.find label := by simp [hgdef]
    have htransit (it : Item) : g.inTransit it = s.inTransit it := by simp [hgdef]
    have hother (it : Item) : g.otherClaim l it = s.otherClaim l it := by simp [hgdef]
    have hquiesce : g.quiesce = s.quiesce := by simp [hgdef]
    have hclaims : g.claims = s.claims := by rw [hgdef]; cases l <;> rfl
    have hsettings : g.settings = s.settings := by rw [hgdef]; cases l <;> rfl
    rw [← hgdef]
    refine ⟨fun hf => hexec (q := (g, [0x13])) ?_, fun it hf => ⟨fun ht => hexec (q := (g, [0x20])) ?_,
      fun k ht hk hl => hexec (q := (g, [0x21, linkCode k.link])) ?_, fun ht ho hl hq => hexec (q := (g, [0x23])) ?_,
      fun u ht ho hq hu => ?_⟩⟩
    case refine_1 => simp only [ownClaim, hfind, hf]; rfl
    case refine_2 => simp only [ownClaim, hfind, hf, htransit, ht, if_true]; rfl
    case refine_3 =>
      simp only [ownClaim, hfind, hf, htransit, ht, hother, State.otherClaim_of_other hk hl, Bool.false_eq_true, if_false]
      rfl
    case refine_4 =>
      have hquiesced : g.claimQuiesced l = true := State.claimQuiesced_iff.2 ⟨hl, hquiesce ▸ hq⟩
      simp only [ownClaim, hfind, hf, htransit, ht, hother, ho, hquiesced, Bool.false_eq_true, if_false, if_true]
      rfl
    case refine_5 =>
      have hsettled : u = g.settleItem it := by rw [hu]; cases it <;> rfl
      have hnot : ¬g.claimQuiesced l = true := State.not_claimQuiesced (hquiesce.symm ▸ hq)
      obtain ⟨huclaims, husettings⟩ : u.claims = s.claims ∧ u.settings = s.settings := by
        rw [hsettled, ← hclaims, ← hsettings]
        exact g.settleItem_kept it
      have hclaimOf : u.claimOf it = s.claimOf it := by rw [State.claimOf, huclaims]; rfl
      have hulimit : u.claimLimit l = limit := by
        rw [hlimit, ← husettings]
        cases l <;> rfl
      have hown : ownClaim l label g = claimSettled l it u := by
        simp only [ownClaim, hfind, hf, htransit, ht, hother, ho, hnot, Bool.false_eq_true, if_false, hsettled]
      rw [claimSettled_eq, hclaimOf, huclaims, hulimit] at hown
      refine ⟨fun hc hroom => ?_, fun hc hfull => ?_, fun hc => ?_⟩
      · rw [if_neg (not_not.2 hc), if_pos hroom] at hown
        exact hexec hown
      · rw [if_neg (not_not.2 hc), if_neg (Nat.not_lt.2 hfull)] at hown
        exact hexec hown
      · rw [if_pos hc] at hown
        exact hexec hown
  case refine_2 =>
    rintro s l tag label i hi hg
    obtain ⟨g, hgdef⟩ : ∃ g, g = s.granted l i := ⟨_, rfl⟩
    have hexec {q : State × List Byte} (hown : ownRelease l label g = q) :
        exec i s = .next (q.1.ends l 0x41 tag q.2) := by
      rw [hgdef] at hown
      subst hi
      refine (serve_granted (own := ownRelease l label) rfl hg).trans ?_
      rw [hown]
      rfl
    have hfind : g.find label = s.find label := by simp [hgdef]
    have hother (it : Item) : g.otherClaim l it = s.otherClaim l it := by simp [hgdef]
    have hquiesce : g.quiesce = s.quiesce := by simp [hgdef]
    have hclaims : g.claims = s.claims := by rw [hgdef]; cases l <;> rfl
    rw [← hgdef]
    refine ⟨fun hf => hexec (q := (g, [0x13])) ?_, fun it hf => ⟨
      fun k hk hl => hexec (q := (g, [0x21, linkCode k.link])) ?_, fun ho hl hq => hexec (q := (g, [0x23])) ?_,
      fun u ho hq hu => ?_⟩⟩
    case refine_1 => simp only [ownRelease, hfind, hf]; rfl
    case refine_2 =>
      simp only [ownRelease, hfind, hf, hother, State.otherClaim_of_other hk hl]
      rfl
    case refine_3 =>
      have hquiesced : g.claimQuiesced l = true := State.claimQuiesced_iff.2 ⟨hl, hquiesce ▸ hq⟩
      simp only [ownRelease, hfind, hf, hother, ho, hquiesced, if_true]
      rfl
    case refine_4 =>
      have hsettled : u = g.settleItem it := by rw [hu]; cases it <;> rfl
      have hnot : ¬g.claimQuiesced l = true := State.not_claimQuiesced (hquiesce.symm ▸ hq)
      have huclaims : u.claims = s.claims := by rw [hsettled, ← hclaims]; exact (g.settleItem_kept it).1
      have hclaimOf : u.claimOf it = s.claimOf it := by rw [State.claimOf, huclaims]; rfl
      have hown : ownRelease l label g = releaseSettled it u := by
        simp only [ownRelease, hfind, hf, hother, ho, hnot, hsettled]
        rfl
      rw [releaseSettled_eq, hclaimOf, huclaims] at hown
      refine ⟨fun hc => ?_, fun hc => ?_⟩
      · rw [if_pos hc] at hown
        exact hexec hown
      · rw [if_neg (not_not.2 hc)] at hown
        exact hexec hown

end Sys2Proof.Machine

/-! PROOFS. Containers: member lists, subtree counts and chains under the operations of chapter 5. -/

namespace Sys2Proof.Machine

-- One proof after another: elaborated side by side, so many short ones outgrow the memory a compile may take.
set_option Elab.async false

open Sys2Proof

section Ends

variable (s : State) (l : Link) (kind tag : Byte) (result : List Byte)

@[simp] theorem State.ends_members (n : Nat) : (s.ends l kind tag result).members n = s.members n := by
  rw [State.ends_eta]; rfl

@[simp] theorem State.ends_subtreeCount (n : Nat) :
    (s.ends l kind tag result).subtreeCount n = s.subtreeCount n := by
  rw [State.ends_eta]; rfl

@[simp] theorem State.ends_stampOf (it : Item) : (s.ends l kind tag result).stampOf it = s.stampOf it := by
  rw [State.ends_eta]; cases it <;> rfl

end Ends

/-! One change of several containers, one after the other -/

section FoldMod

variable {f : Container → Container}

theorem State.container_foldMod_notMem {ns : List Nat} {m : Nat} (hm : m ∉ ns) : ∀ s : State,
    (ns.foldl (fun s n => s.modContainer n f) s).container m = s.container m := by
  induction ns with
  | nil => exact fun _ => rfl
  | cons n ns ih =>
    intro s
    obtain ⟨hn, hns⟩ := not_or.1 fun h => hm (List.mem_cons.2 h)
    rw [List.foldl_cons, ih hns, State.container_modContainer, if_neg hn]

theorem State.container_foldMod {ns : List Nat} (hns : ns.Nodup) (m : Nat) : ∀ s : State,
    (ns.foldl (fun s n => s.modContainer n f) s).container m =
      if m ∈ ns then (s.container m).map f else s.container m := by
  induction ns with
  | nil => simp
  | cons n ns ih =>
    obtain ⟨hn, hns⟩ := List.nodup_cons.1 hns
    intro s
    rw [List.foldl_cons, ih hns, State.container_modContainer]
    by_cases hmn : m = n
    · subst hmn
      simp [hn]
    · simp [hmn]

/-- What the change leaves of a record is left, however often it comes. -/
theorem State.proj_foldMod {β : Type} {π : Container → β} (hf : ∀ c, π (f c) = π c) (ns : List Nat) (m : Nat) :
    ∀ s : State, ((ns.foldl (fun s n => s.modContainer n f) s).container m).map π = (s.container m).map π := by
  induction ns with
  | nil => exact fun _ => rfl
  | cons n ns ih =>
    intro s
    rw [List.foldl_cons, ih, State.container_modContainer]
    split
    next h =>
      subst h
      cases s.container m <;> simp [hf]
    · rfl

end FoldMod

section Subtree

variable (s : State) (ns : List Nat) (k m : Nat)

theorem State.container_subSubtree_notMem {ns : List Nat} {m : Nat} (hm : m ∉ ns) :
    (s.subSubtree ns k).container m = s.container m := State.container_foldMod_notMem hm s

theorem State.container_subSubtree {ns : List Nat} (hns : ns.Nodup) :
    (s.subSubtree ns k).container m =
      if m ∈ ns then (s.container m).map fun c => { c with subtree := c.subtree - k } else s.container m :=
  State.container_foldMod hns m s

theorem State.container_addSubtree {ns : List Nat} (hns : ns.Nodup) :
    (s.addSubtree ns k).container m =
      if m ∈ ns then (s.container m).map fun c => { c with subtree := c.subtree + k } else s.container m :=
  State.container_foldMod hns m s

@[simp] theorem State.members_subSubtree : (s.subSubtree ns k).members m = s.members m := by
  have h := State.proj_foldMod (f := fun c => { c with subtree := c.subtree - k }) (π := (·.members)) (fun _ => rfl) ns m s
  exact congrArg (·.getD []) h

@[simp] theorem State.members_addSubtree : (s.addSubtree ns k).members m = s.members m := by
  have h := State.proj_foldMod (f := fun c => { c with subtree := c.subtree + k }) (π := (·.members)) (fun _ => rfl) ns m s
  exact congrArg (·.getD []) h

theorem State.subtreeCount_subSubtree {ns : List Nat} (hns : ns.Nodup) (hm : m ∈ ns) :
    (s.subSubtree ns k).subtreeCount m = s.subtreeCount m - k := by
  rw [State.subtreeCount, s.container_subSubtree k m hns, if_pos hm, State.subtreeCount]
  cases s.container m with
  | none => exact (Nat.zero_sub k).symm
  | some c => rfl

end Subtree

section Members

variable (s : State) (n : Nat) (it : Item)

theorem State.container_dropMember (m : Nat) :
    (s.dropMember n it).container m =
      if m = n then (s.container n).map fun c => { c with members := c.members.filter (· ≠ it) } else s.container m :=
  s.container_modContainer ..

theorem State.container_addMember (m : Nat) :
    (s.addMember n it).container m =
      if m = n then (s.container n).map fun c => { c with members := c.members ++ [it] } else s.container m :=
  s.container_modContainer ..

theorem State.members_dropMember : (s.dropMember n it).members n = (s.members n).filter (· ≠ it) := by
  rw [State.members, State.container_dropMember, if_pos rfl, State.members]
  cases s.container n <;> rfl

@[simp] theorem State.subtreeCount_dropMember (m : Nat) : (s.dropMember n it).subtreeCount m = s.subtreeCount m := by
  rw [State.subtreeCount, State.container_dropMember]
  split
  next h =>
    subst h
    rw [State.subtreeCount]
    cases s.container m <;> rfl
  · rfl

theorem State.tabWf_dropMember (h : tabWf s.containers = true) : tabWf (s.dropMember n it).containers = true := by
  unfold State.dropMember State.modContainer
  split
  · exact h
  · exact tabWf_put _ _ _ h

end Members

/-- Two states with the same containers have the same chains. -/
theorem State.chain_congr {s t : State} (h : t.containers = s.containers) (n : Nat) : t.chain n = s.chain n := by
  have hparent : t.parentOf = s.parentOf := by
    funext m
    unfold State.parentOf State.container
    rw [h]
  have hfuel (fuel : Nat) : ∀ m, t.chainFuel fuel m = s.chainFuel fuel m := by
    induction fuel with
    | zero => exact fun _ => rfl
    | succ fuel ih =>
      intro m
      rw [State.chainFuel, State.chainFuel, hparent]
      cases s.parentOf m with
      | none => rfl
      | some p => exact congrArg (m :: ·) (ih p)
  exact hfuel _ n

end Sys2Proof.Machine

/-! PROOFS. RETIRE, HOLD and UNHOLD (R46, R83 to R85, R93, R173). -/

namespace Sys2Proof.Machine

-- One proof after another: elaborated side by side, so many short ones outgrow the memory a compile may take.
set_option Elab.async false

open Sys2Proof

/-! Freeing a carrier (R83) -/

section FreeCarrier

variable (s : State) (n : Nat) (c : Carrier)

/-- The entries of a retired item's alerts (R173). -/
def retiredAlerts (it : Item) (as : List Alert) : List Alert :=
  as.map fun a =>
    match a.subject with
    | .item b _ => if b = it then { a with retired := true } else a
    | _ => a

theorem State.freeCarrier_eta :
    s.freeCarrier n c =
      { s with
        carriers := tabDel s.carriers n
        zones := (s.modZoneOpt c.zone fun z => (z.withdraw n).dropResident c.life).zones
        containers := ((s.modZoneOpt c.zone fun z => (z.withdraw n).dropResident c.life).leaveMembers n c.parent).containers
        classes := s.classes.set c.cls { s.cls c.cls with inUse := (s.cls c.cls).inUse - 1 }
        claims := s.claims.filter fun k => k.item ≠ .carrier n
        alerts := retiredAlerts (.carrier n) s.alerts
        directory := s.directory.filter fun e => e.2 ≠ .carrier n } := by
  unfold State.freeCarrier
  dsimp only
  rw [State.leaveMembers_eta, State.modZoneOpt_eta]
  rfl

variable {n c}

theorem State.members_freeCarrier {p : Nat} (h : c.parent = some (.container p)) :
    (s.freeCarrier n c).members p = (s.members p).filter fun m => m ≠ .carrier n := by
  obtain ⟨u, hu⟩ : ∃ u, u = s.modZoneOpt c.zone fun z => (z.withdraw n).dropResident c.life := ⟨_, rfl⟩
  have hsame : (s.freeCarrier n c).members p = (u.leaveMembers n c.parent).members p := by
    rw [State.freeCarrier_eta, ← hu]
    rfl
  have humembers : u.members p = s.members p := by
    rw [hu, State.modZoneOpt_eta]
    rfl
  rw [hsame, h]
  show ((u.dropMember p (.carrier n)).subSubtree (u.chain p) 1).members p = _
  rw [State.members_subSubtree, State.members_dropMember, humembers]

theorem State.subtreeCount_freeCarrier {p m : Nat} (h : c.parent = some (.container p)) (hchain : (s.chain p).Nodup)
    (hm : m ∈ s.chain p) : (s.freeCarrier n c).subtreeCount m = s.subtreeCount m - 1 := by
  obtain ⟨u, hu⟩ : ∃ u, u = s.modZoneOpt c.zone fun z => (z.withdraw n).dropResident c.life := ⟨_, rfl⟩
  have hsame : (s.freeCarrier n c).subtreeCount m = (u.leaveMembers n c.parent).subtreeCount m := by
    rw [State.freeCarrier_eta, ← hu]
    rfl
  have hueta : u = { s with zones := u.zones } := hu ▸ State.modZoneOpt_eta ..
  have huchain : u.chain p = s.chain p := State.chain_congr (by rw [hueta]) p
  have hucount : u.subtreeCount m = s.subtreeCount m := by
    rw [hueta]
    rfl
  rw [hsame, h]
  show ((u.dropMember p (.carrier n)).subSubtree (u.chain p) 1).subtreeCount m = _
  rw [State.subtreeCount_subSubtree _ _ _ (huchain ▸ hchain) (huchain ▸ hm), State.subtreeCount_dropMember, hucount]

theorem State.containers_freeCarrier (h : Parent.container? c.parent = none) :
    (s.freeCarrier n c).containers = s.containers := by
  have hleave (u : State) : u.leaveMembers n c.parent = u := by rw [State.leaveMembers, h]
  rw [State.freeCarrier_eta, hleave, State.modZoneOpt_eta]

theorem State.zone_freeCarrier (m : Nat) :
    (s.freeCarrier n c).zone m =
      if c.zone = some m ∧ m < s.zones.length then ((s.zone m).withdraw n).dropResident c.life else s.zone m := by
  refine Eq.trans ?_ (s.zone_modZoneOpt c.zone m fun z => (z.withdraw n).dropResident c.life)
  rw [State.freeCarrier_eta]
  rfl

theorem State.carrier_freeCarrier (hwf : tabWf s.carriers = true) (m : Nat) :
    (s.freeCarrier n c).carrier m = if m = n then none else s.carrier m := by
  rw [State.freeCarrier_eta]
  exact tabGet_del n m hwf

end FreeCarrier

/-! The state a retired carrier leaves -/

section Retire

variable {s : State} {l : Link} {i : Instr} {n : Nat} {c : Carrier} {b : Bool}

theorem State.tabWf_modCarrier (f : Carrier → Carrier) (h : tabWf s.carriers = true) :
    tabWf (s.modCarrier n f).carriers = true := by
  unfold State.modCarrier
  split
  · exact h
  · exact tabWf_put _ _ _ h

theorem State.tabWf_settle (h : tabWf s.carriers = true) : tabWf (s.settle n).1.carriers = true := by
  cases hc : s.carrier n with
  | none => rwa [s.settle_free n hc]
  | some c =>
    have hcarriers : (s.settle n).1.carriers = tabPut s.carriers n (s.settled c).1 := by
      unfold State.settle
      simp only [hc]
      rw [State.raiseAll_eta]
      show tabPut (s.modZoneOpt c.zone _).carriers n _ = _
      rw [State.modZoneOpt_eta]
    rw [hcarriers]
    exact tabWf_put _ _ _ h

theorem State.tabWf_bumpCarrierIf (h : tabWf s.carriers = true) : tabWf (s.bumpCarrierIf n b).carriers = true := by
  unfold State.bumpCarrierIf
  split
  · exact State.tabWf_modCarrier _ h
  · exact h

theorem State.tabWf_settledAtEight (h : tabWf s.carriers = true) : tabWf (s.settledAtEight l i n).carriers = true := by
  refine State.tabWf_settle ?_
  cases l <;> exact h

theorem State.settledAtEight_zone_other {m : Nat} (hc : s.carrier n = some c) (hm : c.zone ≠ some m) :
    (s.settledAtEight l i n).zone m = s.zone m := by
  rw [State.settledAtEight, State.zone_settle_other _ n m c (by simpa using hc) hm, State.stepEight_zone]

/-- The zone of a carrier settled and freed (R45, R46, R83), also where no such zone stands in the table. -/
theorem State.zone_settledAtEight_freed (hc : s.carrier n = some c) {z : Nat} (hz : c.zone = some z) :
    (if (s.settled c).1.zone = some z ∧ z < (s.settledAtEight l i n).zones.length then
        (((s.settledAtEight l i n).zone z).withdraw n).dropResident (s.settled c).1.life
      else (s.settledAtEight l i n).zone z) =
      { s.zone z with
        residents := (s.zone z).residents - 1
        counts := (s.zone z).counts.sub c.life
        eList := (s.zone z).eList.filter fun e => e.slot ≠ n
        pList := (s.zone z).pList.filter fun e => e.slot ≠ n } := by
  obtain ⟨-, -, -, kzone, -⟩ := s.settled_kept c
  have hlen : (s.settledAtEight l i n).zones.length = s.zones.length := by
    rw [State.settledAtEight, State.settle_zones_length]
    cases l <;> rfl
  have hsettle := (s.stepEight l i (.carrier n)).zone_settle n z c (by simpa using hc)
  have hlen8 : (s.stepEight l i (.carrier n)).zones.length = s.zones.length := by cases l <;> rfl
  rw [hlen8, State.stepEight_zone, State.stepEight_settled] at hsettle
  rw [hlen, kzone]
  by_cases hlt : z < s.zones.length
  · rw [if_pos ⟨hz, hlt⟩] at hsettle
    rw [if_pos ⟨hz, hlt⟩, State.settledAtEight, hsettle, Zone.settle_drop]
  · rw [if_neg fun h => hlt h.2] at hsettle
    rw [if_neg fun h => hlt h.2, State.settledAtEight, hsettle]
    have hcold : s.zone z = Zone.cold := List.getD_eq_default _ _ (Nat.not_lt.1 hlt)
    rw [hcold]
    cases c.life <;> rfl

end Retire

/-- The settle a refused or unchanged carrier request leaves: the record with its own advance of the stamp (R19). -/
theorem State.carrier_settledAtEight_bumped {s : State} {l : Link} {i : Instr} {n : Nat} {c : Carrier}
    (hc : s.carrier n = some c) :
    ((s.settledAtEight l i n).bumpCarrierIf n
        (decide (c.life ≠ (s.settled c).1.life) || decide (c.bakeCount ≠ (s.settled c).1.bakeCount))).carrier n =
      some { (s.settled c).1 with
        stamp := if c.life ≠ (s.settled c).1.life ∨ c.bakeCount ≠ (s.settled c).1.bakeCount then nextStamp c.stamp
          else c.stamp } := by
  obtain ⟨-, -, -, -, -, -, -, -, kstamp, -⟩ := s.settled_kept c
  rw [State.carrier_bumpCarrierIf, if_pos rfl, State.settledAtEight_same hc, Option.map_some, kstamp]
  simp only [Bool.or_eq_true, decide_eq_true_eq]

/-! Freeing a container (R93) -/

section FreeContainer

variable {s : State} {n : Nat} {c : Container}

/-- What freeing an empty container writes. -/
theorem State.freeContainer_spec (hwf : tabWf s.containers = true) :
    ∃ u : State, u = { s with containers := u.containers } ∧ tabWf u.containers = true ∧
      (∀ p, c.parent = some (.container p) → u.members p = (s.members p).filter fun m => m ≠ .container n) ∧
      s.freeContainer n c =
        { s with
          containers := tabDel u.containers n
          zones := (s.modZoneOpt c.zone fun z => { z with containers := z.containers - 1 }).zones
          claims := s.claims.filter fun k => k.item ≠ .container n
          alerts := retiredAlerts (.container n) s.alerts
          directory := s.directory.filter fun e => e.2 ≠ .container n } := by
  cases hp : Parent.container? c.parent with
  | none =>
    refine ⟨s, rfl, hwf, fun p h => ?_, ?_⟩
    · rw [h] at hp
      exact absurd hp (Option.some_ne_none p)
    · unfold State.freeContainer
      rw [hp]
      dsimp only
      rw [State.modZoneOpt_eta]
      rfl
  | some p =>
    refine ⟨s.dropMember p (.container n), s.dropMember_eta p _, s.tabWf_dropMember p _ hwf, fun q h => ?_, ?_⟩
    · rw [h] at hp
      obtain rfl : q = p := Option.some.inj hp
      exact s.members_dropMember q _
    · unfold State.freeContainer
      rw [hp]
      dsimp only
      have hzones : ((s.dropMember p (.container n)).modZoneOpt c.zone fun z =>
          { z with containers := z.containers - 1 }).zones =
          (s.modZoneOpt c.zone fun z => { z with containers := z.containers - 1 }).zones := by
        rw [State.dropMember_eta]
        cases c.zone <;> rfl
      rw [State.modZoneOpt_eta, hzones, State.dropMember_eta]
      rfl

end FreeContainer

/-! A request that changes one record only -/

section Record

variable {s u : State} {l : Link} {i : Instr} {n reason : Nat} {c : Carrier} {b : Bool}

/-- What a request that changed its carrier's record only leaves as it was. -/
theorem State.record_only (hu : u = { s.settledAtEight l i n with carriers := u.carriers })
    (hothers : ∀ m, m ≠ n → u.carrier m = (s.settledAtEight l i n).carrier m) (kind tag : Byte) (result : List Byte) :
    (∀ m, m ≠ n → (u.ends l kind tag result).carrier m = s.carrier m) ∧ s.airKept (u.ends l kind tag result) ∧
      s.movesOnly (u.ends l kind tag result) := by
  refine ⟨fun m hm => ?_, fun m => ?_, ?_⟩
  · rw [State.ends_carrier, hothers m hm, State.settledAtEight_others hm]
  · rw [State.ends_zone, hu]
    exact State.settledAtEight_airKept m
  · have honly : (s.settledAtEight l i n).movesOnly u := by
      unfold State.movesOnly
      rw [hu]
    exact (State.settledAtEight_movesOnly.trans honly).trans (u.movesOnly_ends ..)

theorem State.setHold_eta (s : State) (n reason : Nat) :
    s.setHold n reason = { s with carriers := (s.setHold n reason).carriers } := by
  unfold State.setHold State.bumpCarrier
  rw [State.modCarrier_eta, State.modCarrier_eta]

theorem State.carrier_setHold (s : State) (n reason m : Nat) :
    (s.setHold n reason).carrier m =
      if m = n then (s.carrier n).map fun c => { c with hold := reason, stamp := nextStamp c.stamp }
      else s.carrier m := by
  unfold State.setHold
  rw [State.carrier_bumpCarrier]
  by_cases hm : m = n
  · subst hm
    rw [if_pos rfl, if_pos rfl, State.carrier_modCarrier, if_pos rfl, Option.map_map]
    rfl
  · rw [if_neg hm, if_neg hm, State.carrier_modCarrier, if_neg hm]

/-- HOLD and UNHOLD that change the reason: the reason with one advance of the stamp. -/
theorem State.carrier_setHold_settled (hc : s.carrier n = some c) :
    ((s.settledAtEight l i n).setHold n reason).carrier n =
      some { (s.settled c).1 with hold := reason, stamp := nextStamp c.stamp } := by
  obtain ⟨-, -, -, -, -, -, -, -, kstamp, -⟩ := s.settled_kept c
  rw [State.carrier_setHold, if_pos rfl, State.settledAtEight_same hc, Option.map_some, kstamp]

/-- The reply past step 8 of a carrier whose record is known. -/
theorem State.pastStep8_carrier {d : Carrier} (hd : u.carrier n = some d) (st : Byte) :
    u.pastStep8 st (.carrier n) = [st] ++ u16 d.stamp ++ [lifeCode d.life] := by
  rw [State.pastStep8, hd]

theorem State.stampOf_carrier {d : Carrier} (hd : u.carrier n = some d) : u.stampOf (.carrier n) = d.stamp := by
  rw [State.stampOf, hd]
  rfl

end Record

/-- Settles O45: a carrier is freed after the settle of step 8, a container as it stands; HOLD and UNHOLD change one record. -/
theorem retireAndHold : Obligations.RetireAndHold := by
  refine ⟨?_, ?_, ?_, ?_, ?_⟩
  case refine_1 =>
    rintro s tag label stamp n c k i rfl hg hp hc hwf rfl
    obtain ⟨i, hi⟩ : ∃ i, i = Instr.retire .host tag label stamp := ⟨_, rfl⟩
    rw [← hi] at hg ⊢
    obtain ⟨kcls, -, kparent, kzone, -⟩ := s.settled_kept c
    obtain ⟨u, hu⟩ : ∃ u, u = (s.settledAtEight .host i n).bumpCarrierIf n
      (decide (c.life ≠ (s.settled c).1.life) || decide (c.bakeCount ≠ (s.settled c).1.bakeCount)) := ⟨_, rfl⟩
    have hueta : u = { s.settledAtEight .host i n with carriers := u.carriers } := hu ▸ State.bumpCarrierIf_eta ..
    obtain ⟨d, hd⟩ : ∃ d, d = { (s.settled c).1 with
      stamp := if c.life ≠ (s.settled c).1.life ∨ c.bakeCount ≠ (s.settled c).1.bakeCount then nextStamp c.stamp
        else c.stamp } := ⟨_, rfl⟩
    have hud : u.carrier n = some d := by rw [hu, State.carrier_settledAtEight_bumped hc, hd]
    obtain ⟨t, ht⟩ : ∃ t, t = u.freeCarrier n (s.settled c).1 := ⟨_, rfl⟩
    have hteta := u.freeCarrier_eta n (s.settled c).1
    rw [← ht] at hteta
    have hexec : exec i s = .next (t.ends .host 0x16 tag
        ([0x00] ++ u16 d.stamp ++ [lifeCode d.life] ++ u32 (s.settled c).1.base ++ u8 (s.settled c).1.bakeCount)) := by
      rw [hi] at hg hu ⊢
      refine (serve_carrier (f := retireCarrier) (g := retireContainer) rfl hg hp).trans ?_
      rw [retireCarrier, withSettled_stepEight _ hc, ← hu]
      simp only [State.pastStep8, hud, ← ht]
      rfl
    have huwf : tabWf u.carriers = true := hu ▸ State.tabWf_bumpCarrierIf (State.tabWf_settledAtEight hwf)
    have huzone (m : Nat) : u.zone m = (s.settledAtEight .host i n).zone m := by rw [hueta]; rfl
    have hulen : u.zones.length = (s.settledAtEight .host i n).zones.length := by rw [hueta]
    have hcontainers : u.containers = s.containers := by
      rw [hueta, State.settledAtEight_eta]
      rfl
    have hclasses : u.classes = s.classes := by
      rw [hueta, State.settledAtEight_eta]
      rfl
    have hdirectory : u.directory = s.directory := by
      rw [hueta, State.settledAtEight_eta]
      rfl
    refine ⟨_, hexec, ?_, fun m hm => ?_, ?_, ?_, fun z hz => ?_, fun m hm => ?_, ?_, fun p hparent => ?_,
      fun p hparent hchain m hm => ?_, fun hparent => ?_, ?_, fun m => ?_, ?_, ?_⟩
    case refine_1 => rw [State.ends_carrier, ht, u.carrier_freeCarrier huwf, if_pos rfl]
    case refine_2 =>
      rw [State.ends_carrier, ht, u.carrier_freeCarrier huwf, if_neg hm, hu, State.carrier_bumpCarrierIf, if_neg hm,
        State.settledAtEight_others hm]
    case refine_3 => rw [State.ends_directory, hteta, hdirectory]
    case refine_4 =>
      rw [State.claimOf, State.ends_claims, hteta]
      simp
    case refine_5 =>
      rw [State.ends_zone, ht, State.zone_freeCarrier, huzone, hulen]
      exact State.zone_settledAtEight_freed hc hz
    case refine_6 =>
      rw [State.ends_zone, ht, State.zone_freeCarrier, if_neg fun h => hm (kzone ▸ h.1), huzone]
      exact State.settledAtEight_zone_other hc hm
    case refine_7 =>
      have htcls : t.cls c.cls =
          (u.setCls c.cls { u.cls c.cls with inUse := (u.cls c.cls).inUse - 1 }).cls c.cls := by
        rw [hteta, kcls]
        rfl
      have hucls : u.cls c.cls = s.cls c.cls := by rw [State.cls, hclasses]; rfl
      rw [State.ends_cls, htcls, State.cls_setCls, hucls]
      split
      · rfl
      next hlt =>
        have hcold : s.cls c.cls = ClassRec.cold :=
          List.getD_eq_default _ _ (Nat.not_lt.1 fun h => hlt ⟨rfl, hclasses ▸ h⟩)
        rw [hcold]
        rfl
    case refine_8 =>
      have hmembers : u.members p = s.members p := by
        unfold State.members State.container
        rw [hcontainers]
      rw [State.ends_members, ht, State.members_freeCarrier _ (kparent.trans hparent), hmembers]
    case refine_9 =>
      have hcount : u.subtreeCount m = s.subtreeCount m := by
        unfold State.subtreeCount State.container
        rw [hcontainers]
      have hsame : u.chain p = s.chain p := State.chain_congr hcontainers p
      rw [State.ends_subtreeCount, ht, State.subtreeCount_freeCarrier _ (kparent.trans hparent) (hsame ▸ hchain)
        (hsame ▸ hm), hcount]
    case refine_10 =>
      rw [State.ends_containers, ht, State.containers_freeCarrier _ (by rwa [kparent]), hcontainers]
    case refine_11 =>
      rw [State.ends_alerts, hteta, hueta]
      rfl
    case refine_12 =>
      have hfreed : u.airKept t := fun m => by
        rw [ht, State.zone_freeCarrier]
        split <;> rfl
      have hair : s.airKept t :=
        State.airKept_trans State.settledAtEight_airKept (State.airKept_trans (fun m => by rw [huzone]) hfreed)
      rw [State.ends_zone]
      exact hair m
    case refine_13 =>
      refine (congrArg LinkState.hand (t.ends_link .host ..)).trans ?_
      rw [hd]
      simp
    case refine_14 =>
      have honly : s.movesOnly u := by
        have h : (s.settledAtEight .host i n).movesOnly u := by
          unfold State.movesOnly
          rw [hueta]
        exact State.settledAtEight_movesOnly.trans h
      have hformed : State.containsOnly { s with directory := t.directory, classes := t.classes } t := by
        unfold State.containsOnly State.movesOnly
        rw [hteta, honly]
      rw [State.ends_directory, State.ends_classes]
      exact hformed.containsOnly_ends ..
  case refine_2 =>
    rintro s tag label stamp n c i rfl hg hp hc
    obtain ⟨i, hi⟩ : ∃ i, i = Instr.retire .host tag label stamp := ⟨_, rfl⟩
    rw [← hi] at hg ⊢
    obtain ⟨g, hgdef⟩ : ∃ g, g = s.stepEight .host i (.container n) := ⟨_, rfl⟩
    have hgc : g.container n = some c := by simp [hgdef, hc]
    have hstamp : g.stampOf (.container n) = c.stamp := by simp [State.stampOf, hgc]
    have hexec {q : State × List Byte} (hown : retireContainer n g = q) :
        exec i s = .next (q.1.ends .host 0x16 tag q.2) := by
      rw [hi] at hg hgdef ⊢
      refine (serve_container (f := retireCarrier) (g := retireContainer) rfl hg hp).trans ?_
      rw [← hgdef, hown]
      rfl
    rw [← hgdef]
    refine ⟨fun hm => hexec (q := (g, [0x1B] ++ u16 c.stamp ++ [0xFF])) ?_, fun hm hwf => ?_⟩
    · simp only [retireContainer, hgc, if_pos hm, State.refuseContainer_eq, hstamp]
      rfl
    have hgeta : s.movesOnly g := hgdef ▸ s.movesOnly_stepEight ..
    have hgcontainers : g.containers = s.containers := by rw [hgeta]
    have hgzone (m : Nat) : g.zone m = s.zone m := by simp [hgdef]
    obtain ⟨u, hueta, huwf, humembers, hfree⟩ := State.freeContainer_spec (s := g) (n := n) (c := c) (hgcontainers ▸ hwf)
    obtain ⟨t, ht⟩ : ∃ t, t = g.freeContainer n c := ⟨_, rfl⟩
    rw [← ht] at hfree
    have hrun := hexec (q := (t, [0x00] ++ u16 c.stamp ++ [0xFF])) (by
      simp only [retireContainer, hgc, ne_eq, hm, not_true_eq_false, if_false, State.pastStep8, hstamp, ← ht]
      rfl)
    have htzone (m : Nat) : t.zone m =
        if c.zone = some m ∧ m < g.zones.length then { g.zone m with containers := (g.zone m).containers - 1 }
        else g.zone m := by
      refine Eq.trans ?_ (g.zone_modZoneOpt c.zone m fun z => { z with containers := z.containers - 1 })
      rw [hfree]
      rfl
    refine ⟨_, hrun, ?_, ?_, ?_, fun z hz => ?_, fun m hz => ?_, ?_, fun p hparent hpn => ?_, ?_, ?_⟩
    case refine_1 =>
      rw [State.ends_container, hfree]
      exact (tabGet_del n n huwf).trans (if_pos rfl)
    case refine_2 => rw [State.ends_directory, hfree, hgeta]
    case refine_3 =>
      rw [State.claimOf, State.ends_claims, hfree]
      simp
    case refine_4 =>
      rw [State.ends_zone, htzone, hgzone]
      split
      · rfl
      next hlt =>
        have hcold : g.zone z = Zone.cold := List.getD_eq_default _ _ (Nat.not_lt.1 fun h => hlt ⟨hz, h⟩)
        rw [← hgzone, hcold]
        rfl
    case refine_5 => rw [State.ends_zone, htzone, if_neg fun h => hz h.1, hgzone]
    case refine_6 => rw [State.ends_carriers, hfree, hgdef]; rfl
    case refine_7 =>
      have htp : t.members p = u.members p := by
        have hcontainer : t.container p = u.container p := by
          rw [hfree]
          exact (tabGet_del n p huwf).trans (if_neg hpn)
        rw [State.members, hcontainer]
        rfl
      have hgmembers : g.members p = s.members p := by
        unfold State.members State.container
        rw [hgcontainers]
      rw [State.ends_members, htp, humembers p hparent, hgmembers]
    case refine_8 =>
      rw [State.ends_alerts, hfree, hgdef]
      rfl
    case refine_9 =>
      refine (congrArg LinkState.hand (t.ends_link .host ..)).trans ?_
      simp
  case refine_3 =>
    rintro s tag reason label stamp n c k i rfl hg hp hc rfl
    obtain ⟨i, hi⟩ : ∃ i, i = Instr.hold .host tag label reason stamp := ⟨_, rfl⟩
    rw [← hi] at hg ⊢
    obtain ⟨-, -, -, -, -, -, -, khold, -⟩ := s.settled_kept c
    obtain ⟨u, hu⟩ : ∃ u, u = (if (s.settled c).1.hold = reason.toNat then
        (s.settledAtEight .host i n).bumpCarrierIf n
          (decide (c.life ≠ (s.settled c).1.life) || decide (c.bakeCount ≠ (s.settled c).1.bakeCount))
      else (s.settledAtEight .host i n).setHold n reason.toNat) := ⟨_, rfl⟩
    have hexec : exec i s = .next (u.ends .host 0x17 tag (u.pastStep8 0x00 (.carrier n))) := by
      rw [hi] at hg hu ⊢
      refine (serve_carrier (f := holdCarrier reason.toNat) (g := holdContainer) rfl hg hp).trans ?_
      rw [holdCarrier, withSettled_stepEight _ hc, hu]
      rfl
    have hueta : u = { s.settledAtEight .host i n with carriers := u.carriers } := by
      rw [hu]
      split
      · exact State.bumpCarrierIf_eta ..
      · exact State.setHold_eta ..
    have hothers (m : Nat) (hm : m ≠ n) : u.carrier m = (s.settledAtEight .host i n).carrier m := by
      rw [hu]
      split
      · rw [State.carrier_bumpCarrierIf, if_neg hm]
      · rw [State.carrier_setHold, if_neg hm]
    have hset (h : c.hold ≠ reason.toNat) :
        u.carrier n = some { (s.settled c).1 with hold := reason.toNat, stamp := nextStamp c.stamp } := by
      rw [hu, if_neg (by rwa [khold]), State.carrier_setHold_settled hc]
    have hkept (h : c.hold = reason.toNat) := hu.trans (if_pos (khold.trans h))
    obtain ⟨hrest, hair, honly⟩ := State.record_only hueta hothers 0x17 tag (u.pastStep8 0x00 (.carrier n))
    refine ⟨_, hexec, fun h => ?_, fun h => ?_, hrest, hair, honly, ?_⟩
    · rw [State.ends_carrier, hset h]
    · rw [State.ends_carrier, hkept h, State.carrier_settledAtEight_bumped hc]
    · refine (congrArg LinkState.hand (u.ends_link .host ..)).trans ?_
      rw [State.ends_stampOf]
      by_cases h : c.hold = reason.toNat
      · have hrecord := State.carrier_settledAtEight_bumped (l := .host) (i := i) hc
        rw [← hkept h] at hrecord
        rw [State.pastStep8_carrier hrecord, State.stampOf_carrier hrecord]
        simp
      · rw [State.pastStep8_carrier (hset h), State.stampOf_carrier (hset h)]
        simp
  case refine_4 =>
    rintro s tag label stamp n c k i rfl hg hp hc rfl
    obtain ⟨i, hi⟩ : ∃ i, i = Instr.unhold .host tag label stamp := ⟨_, rfl⟩
    rw [← hi] at hg ⊢
    obtain ⟨-, -, -, -, -, -, -, khold, -⟩ := s.settled_kept c
    have hexec {q : State × List Byte} (hown : (if (s.settled c).1.hold = 0 then
          (s.settledAtEight .host i n).refuseCarrier n
            (decide (c.life ≠ (s.settled c).1.life) || decide (c.bakeCount ≠ (s.settled c).1.bakeCount)) 0x18 []
        else ((s.settledAtEight .host i n).setHold n 0,
          ((s.settledAtEight .host i n).setHold n 0).pastStep8 0x00 (.carrier n))) = q) :
        exec i s = .next (q.1.ends .host 0x18 tag q.2) := by
      rw [hi] at hg hown ⊢
      refine (serve_carrier (f := unholdCarrier) (g := holdContainer) rfl hg hp).trans ?_
      rw [unholdCarrier, withSettled_stepEight _ hc, ← hown]
      rfl
    by_cases h : c.hold = 0
    · rw [if_pos (khold.trans h)] at hexec
      have hrecord := State.carrier_settledAtEight_bumped (l := .host) (i := i) hc
      obtain ⟨hrest, hair, honly⟩ := State.record_only (State.bumpCarrierIf_eta (s.settledAtEight .host i n) n
        (decide (c.life ≠ (s.settled c).1.life) || decide (c.bakeCount ≠ (s.settled c).1.bakeCount)))
        (fun m hm => by rw [State.carrier_bumpCarrierIf, if_neg hm]) 0x18 tag _
      refine ⟨_, hexec rfl, fun h' => absurd h h', fun _ => ?_, hrest, hair, honly⟩
      refine (congrArg LinkState.hand (State.ends_link _ .host ..)).trans ?_
      rw [State.ends_stampOf]
      simp only [State.refuseCarrier]
      rw [State.pastStep8_carrier hrecord, State.stampOf_carrier hrecord]
      simp
    · rw [if_neg (by rwa [khold])] at hexec
      have hrecord := State.carrier_setHold_settled (l := .host) (i := i) (reason := 0) hc
      obtain ⟨hrest, hair, honly⟩ := State.record_only (State.setHold_eta (s.settledAtEight .host i n) n 0)
        (fun m hm => by rw [State.carrier_setHold, if_neg hm]) 0x18 tag _
      refine ⟨_, hexec rfl, fun _ => ⟨?_, ?_⟩, fun h' => absurd h' h, hrest, hair, honly⟩
      · rw [State.ends_carrier, hrecord]
      · refine (congrArg LinkState.hand (State.ends_link _ .host ..)).trans ?_
        rw [State.pastStep8_carrier hrecord]
        simp
  case refine_5 =>
    rintro s tag reason label stamp n i hi hg hp
    have hreply (g : State) : holdContainer n g = (g, [0x18] ++ u16 (g.stampOf (.container n)) ++ [0xFF]) := by
      rw [holdContainer, State.refuseContainer_eq]
      rfl
    rcases hi with rfl | rfl
    · refine (serve_container (f := holdCarrier reason.toNat) (g := holdContainer) rfl hg hp).trans ?_
      rw [hreply, State.stepEight_stampOf]
    · refine (serve_container (f := unholdCarrier) (g := holdContainer) rfl hg hp).trans ?_
      rw [hreply, State.stepEight_stampOf]

end Sys2Proof.Machine

/-! PROOFS. Taking a container in and out (R90, R96, R99): depths, counts and chains. -/

namespace Sys2Proof.Machine

-- One proof after another: elaborated side by side, so many short ones outgrow the memory a compile may take.
set_option Elab.async false

open Sys2Proof

/-! Setting depths -/

/-- The containers below `n`, itself first, each with the depth it has when `n` has depth `d` (R90). -/
def State.depthsFuel (s : State) : Nat → Nat → Nat → List (Nat × Nat)
  | 0, _, _ => []
  | fuel + 1, n, d =>
    (n, d) :: (s.members n).flatMap fun it =>
      match it with
      | .carrier _ => []
      | .container m => s.depthsFuel fuel m (d + 1)

/-- Write one depth. -/
def State.setDepth (s : State) (p : Nat × Nat) : State := s.modContainer p.1 fun c => { c with depth := p.2 }

section Depths

variable {s t : State}

@[simp] theorem State.members_setDepth (s : State) (p : Nat × Nat) (m : Nat) :
    (s.setDepth p).members m = s.members m := by
  rw [State.members, State.setDepth, State.container_modContainer]
  split
  next h =>
    subst h
    rw [State.members]
    cases s.container p.1 <;> rfl
  · rfl

@[simp] theorem State.members_foldDepth (ps : List (Nat × Nat)) (m : Nat) :
    ∀ s : State, (ps.foldl State.setDepth s).members m = s.members m := by
  induction ps with
  | nil => exact fun _ => rfl
  | cons p ps ih =>
    intro s
    rw [List.foldl_cons, ih, State.members_setDepth]

/-- Setting depths writes the depth of each container below, one after the other: it reads the member lists, which it
leaves. -/
theorem State.setDepthsFuel_eq (fuel : Nat) : ∀ (n d : Nat) (t : State), (∀ m, t.members m = s.members m) →
    State.setDepthsFuel fuel n d t = (s.depthsFuel fuel n d).foldl State.setDepth t := by
  induction fuel with
  | zero => exact fun _ _ _ _ => rfl
  | succ fuel ih =>
    intro n d t ht
    have hitems (its : List Item) : ∀ u : State, (∀ m, u.members m = s.members m) →
        its.foldl
            (fun s it =>
              match it with
              | .carrier _ => s
              | .container m => State.setDepthsFuel fuel m (d + 1) s) u =
          (its.flatMap fun it =>
            match it with
            | .carrier _ => []
            | .container m => s.depthsFuel fuel m (d + 1)).foldl State.setDepth u := by
      induction its with
      | nil => exact fun _ _ => rfl
      | cons it its ihs =>
        intro u hu
        rw [List.foldl_cons, List.flatMap_cons, List.foldl_append]
        cases it with
        | carrier c => exact ihs u hu
        | container m =>
          simp only
          rw [ih m (d + 1) u hu]
          exact ihs _ fun x => by rw [State.members_foldDepth, hu]
    rw [State.setDepthsFuel, State.depthsFuel, List.foldl_cons, ht]
    exact hitems _ _ fun m => by rw [← ht m]; exact State.members_setDepth t (n, d) m

theorem State.map_depthsFuel (fuel : Nat) : ∀ n d : Nat,
    (s.depthsFuel fuel n d).map Prod.fst = s.subContainersFuel fuel n := by
  induction fuel with
  | zero => exact fun _ _ => rfl
  | succ fuel ih =>
    intro n d
    rw [State.depthsFuel, State.subContainersFuel, List.map_cons, List.map_flatMap]
    congr 2
    funext it
    cases it with
    | carrier c => rfl
    | container m => exact ih m (d + 1)

theorem State.container_foldDepth_notMem {ps : List (Nat × Nat)} {m : Nat} (hm : m ∉ ps.map Prod.fst) :
    ∀ s : State, (ps.foldl State.setDepth s).container m = s.container m := by
  induction ps with
  | nil => exact fun _ => rfl
  | cons p ps ih =>
    intro s
    obtain ⟨hp, hps⟩ := not_or.1 fun h => hm (List.mem_cons.2 h)
    rw [List.foldl_cons, ih hps, State.setDepth, State.container_modContainer, if_neg hp]

theorem State.container_foldDepth_mem {ps : List (Nat × Nat)} {m e : Nat} (hps : (ps.map Prod.fst).Nodup)
    (hm : (m, e) ∈ ps) :
    ∀ s : State, (ps.foldl State.setDepth s).container m = (s.container m).map fun c => { c with depth := e } := by
  induction ps with
  | nil => exact fun _ => absurd hm List.not_mem_nil
  | cons p ps ih =>
    intro s
    obtain ⟨hp, hps⟩ := List.nodup_cons.1 hps
    rw [List.foldl_cons]
    rcases List.mem_cons.1 hm with rfl | hm
    · rw [State.container_foldDepth_notMem hp, State.setDepth, State.container_modContainer, if_pos rfl]
    · have hne : m ≠ p.1 := fun h => hp (List.mem_map.2 ⟨(m, e), hm, h⟩)
      rw [ih hps hm, State.setDepth, State.container_modContainer, if_neg hne]

end Depths

/-! The subtree's depths after `setDepths` -/

section SetDepths

variable {s t : State} {x d : Nat}

/-- The depths below a container that is given depth `d` (R90). -/
def State.depths (s : State) (x d : Nat) : List (Nat × Nat) := s.depthsFuel 3 x d

theorem State.setDepths_eq (h : ∀ m, t.members m = s.members m) :
    t.setDepths x d = (s.depths x d).foldl State.setDepth t := State.setDepthsFuel_eq 3 x d t h

theorem State.map_depths (s : State) (x d : Nat) : (s.depths x d).map Prod.fst = s.subContainers x :=
  State.map_depthsFuel 3 x d

theorem State.self_mem_depths : (x, d) ∈ s.depths x d := List.mem_cons_self

theorem State.member_mem_depthsFuel {fuel m : Nat} (h : Item.container m ∈ s.members x) :
    (m, d + 1) ∈ s.depthsFuel (fuel + 2) x d :=
  List.mem_cons_of_mem _ (List.mem_flatMap.2 ⟨_, h, List.mem_cons_self⟩)

theorem State.member_mem_depths {m : Nat} (h : Item.container m ∈ s.members x) : (m, d + 1) ∈ s.depths x d :=
  State.member_mem_depthsFuel h

theorem State.below_mem_depths {m q : Nat} (h : Item.container m ∈ s.members x) (hq : Item.container q ∈ s.members m) :
    (q, d + 2) ∈ s.depths x d :=
  List.mem_cons_of_mem _ (List.mem_flatMap.2 ⟨_, h, State.member_mem_depthsFuel hq⟩)

theorem State.container_setDepths_notMem (h : ∀ m, t.members m = s.members m) {m : Nat} (hm : m ∉ s.subContainers x) :
    (t.setDepths x d).container m = t.container m := by
  rw [State.setDepths_eq h, State.container_foldDepth_notMem (by rwa [State.map_depths])]

theorem State.container_setDepths_mem (h : ∀ m, t.members m = s.members m) (hx : (s.subContainers x).Nodup) {m e : Nat}
    (hm : (m, e) ∈ s.depths x d) :
    (t.setDepths x d).container m = (t.container m).map fun c => { c with depth := e } := by
  rw [State.setDepths_eq h, State.container_foldDepth_mem (by rwa [State.map_depths]) hm]

/-- Only the depth of a container below is written. -/
theorem State.exists_depth {m : Nat} (hm : m ∈ s.subContainers x) (d : Nat) : ∃ e, (m, e) ∈ s.depths x d := by
  rw [← State.map_depths s x d] at hm
  obtain ⟨⟨n, e⟩, he, rfl⟩ := List.mem_map.1 hm
  exact ⟨e, he⟩

theorem State.mem_subContainers_of_depths {m e : Nat} (h : (m, e) ∈ s.depths x d) : m ∈ s.subContainers x := by
  rw [← State.map_depths s x d]
  exact List.mem_map.2 ⟨_, h, rfl⟩

theorem State.self_mem_subContainers (s : State) (x : Nat) : x ∈ s.subContainers x := List.mem_cons_self

theorem State.self_mem_chain (s : State) (n : Nat) : n ∈ s.chain n := List.mem_cons_self

end SetDepths

/-! Chains under a change of one parent -/

/-- A chain that does not meet `x` does not feel a change of records that keeps every other parent. -/
theorem State.chain_of_parents {s t : State} {x n : Nat} (h : ∀ m, m ≠ x → t.parentOf m = s.parentOf m)
    (hx : x ∉ s.chain n) : t.chain n = s.chain n := by
  have hfuel (fuel : Nat) : ∀ n, x ∉ s.chainFuel fuel n → t.chainFuel fuel n = s.chainFuel fuel n := by
    induction fuel with
    | zero => exact fun _ _ => rfl
    | succ fuel ih =>
      intro n hn
      rw [State.chainFuel] at hn ⊢
      rw [State.chainFuel]
      obtain ⟨hne, hrest⟩ := not_or.1 fun h => hn (List.mem_cons.2 h)
      rw [h n (Ne.symm hne)]
      cases hp : s.parentOf n with
      | none => rfl
      | some p =>
        rw [hp] at hrest
        exact congrArg (n :: ·) (ih p hrest)
  exact hfuel _ n hx

/-! The same depths in two states -/

theorem State.depthsFuel_congr {s t : State} (fuel : Nat) : ∀ n d : Nat,
    (∀ m ∈ s.subContainersFuel fuel n, t.members m = s.members m) →
      t.depthsFuel fuel n d = s.depthsFuel fuel n d := by
  induction fuel with
  | zero => exact fun _ _ _ => rfl
  | succ fuel ih =>
    intro n d h
    rw [State.depthsFuel, State.depthsFuel, h n List.mem_cons_self]
    congr 1
    refine List.flatMap_congr fun it hit => ?_
    cases it with
    | carrier c => rfl
    | container m =>
      exact ih m (d + 1) fun q hq => h q (List.mem_cons_of_mem _ (List.mem_flatMap.2 ⟨_, hit, hq⟩))

theorem State.subContainers_congr {s t : State} {x : Nat} (h : ∀ m ∈ s.subContainers x, t.members m = s.members m) :
    t.subContainers x = s.subContainers x ∧ ∀ d, t.depths x d = s.depths x d := by
  have hdepths (d : Nat) : t.depths x d = s.depths x d := State.depthsFuel_congr 3 x d h
  refine ⟨?_, hdepths⟩
  rw [← State.map_depths t x 0, ← State.map_depths s x 0, hdepths]

/-! What joins and leaves keep of every record -/

section Kept

variable {β : Type} {π : Container → β}

theorem State.proj_foldDepth (hπ : ∀ (c : Container) (e : Nat), π { c with depth := e } = π c) (ps : List (Nat × Nat))
    (m : Nat) : ∀ s : State, ((ps.foldl State.setDepth s).container m).map π = (s.container m).map π := by
  induction ps with
  | nil => exact fun _ => rfl
  | cons p ps ih =>
    intro s
    rw [List.foldl_cons, ih, State.setDepth, State.container_modContainer]
    split
    next h =>
      subst h
      cases s.container p.1 <;> simp [hπ]
    · rfl

theorem State.proj_setDepths (hπ : ∀ (c : Container) (e : Nat), π { c with depth := e } = π c) (s : State) (x d m : Nat) :
    ((s.setDepths x d).container m).map π = (s.container m).map π := by
  rw [State.setDepths_eq (s := s) fun _ => rfl]
  exact State.proj_foldDepth hπ _ m s

theorem State.proj_modContainer {f : Container → Container} (hπ : ∀ c, π (f c) = π c) (s : State) (n m : Nat) :
    ((s.modContainer n f).container m).map π = (s.container m).map π := by
  rw [State.container_modContainer]
  split
  next h =>
    subst h
    cases s.container m <;> simp [hπ]
  · rfl

theorem State.stamp_bumpContainer (s : State) (x : Nat) :
    ((s.bumpContainer x).container x).map (·.stamp) = ((s.container x).map (·.stamp)).map nextStamp := by
  rw [State.bumpContainer, State.container_modContainer, if_pos rfl]
  cases s.container x <;> rfl

/-- A join advances the item's stamp once, however the containers stand (R96, R156). -/
theorem State.stamp_joinContainer (s : State) (x t : Nat) :
    ((s.joinContainer x t).container x).map (·.stamp) = ((s.container x).map (·.stamp)).map nextStamp := by
  unfold State.joinContainer
  refine (State.stamp_bumpContainer _ x).trans (congrArg _ ?_)
  refine (State.proj_foldMod (by intro; rfl) _ x _).trans ?_
  refine (State.proj_setDepths (by intros; rfl) _ x _ x).trans ?_
  exact (State.proj_modContainer (by intro; rfl) _ t x).trans (State.proj_modContainer (by intro; rfl) _ x x)

/-- A leave advances the item's stamp once (R99, R156). -/
theorem State.stamp_leaveContainer {s : State} {x p : Nat} (hp : s.parentOf x = some p) :
    ((s.leaveContainer x).container x).map (·.stamp) = ((s.container x).map (·.stamp)).map nextStamp := by
  unfold State.leaveContainer
  rw [hp]
  refine (State.stamp_bumpContainer _ x).trans (congrArg _ ?_)
  refine (State.proj_setDepths (by intros; rfl) _ x _ x).trans ?_
  refine (State.proj_modContainer (by intro; rfl) _ x x).trans ?_
  exact (State.proj_foldMod (by intro; rfl) _ x _).trans (State.proj_modContainer (by intro; rfl) _ p x)

end Kept

/-! The containers after a join (R90, R96) -/

section Join

variable {s : State} {x t : Nat}

/-- The parent and the member list of a join, before its depths and counts. -/
def State.joinLink (s : State) (x t : Nat) : State :=
  (s.modContainer x fun c => { c with parent := some (.container t) }).addMember t (.container x)

theorem State.joinContainer_eq (s : State) (x t : Nat) :
    s.joinContainer x t =
      (((s.joinLink x t).setDepths x (((s.container t).map (·.depth)).getD 0 + 1)).addSubtree ((s.joinLink x t).chain t)
        (s.subtreeCount x)).bumpContainer x := rfl

theorem State.container_joinLink (s : State) (x t m : Nat) (hxt : x ≠ t) :
    (s.joinLink x t).container m =
      if m = t then (s.container t).map fun c => { c with members := c.members ++ [.container x] }
      else if m = x then (s.container x).map fun c => { c with parent := some (.container t) }
      else s.container m := by
  rw [State.joinLink, State.container_addMember]
  split
  · rw [State.container_modContainer, if_neg hxt.symm]
  · exact s.container_modContainer ..

theorem State.members_joinLink (s : State) (x t m : Nat) (hxt : x ≠ t) (hm : m ≠ t) :
    (s.joinLink x t).members m = s.members m := by
  rw [State.members, s.container_joinLink x t m hxt, if_neg hm, State.members]
  split
  next h =>
    subst h
    cases s.container m <;> rfl
  · rfl

theorem State.chain_joinLink (hx : x ∉ s.chain t) : (s.joinLink x t).chain t = s.chain t := by
  have hxt : x ≠ t := fun h => hx (h ▸ s.self_mem_chain t)
  refine State.chain_of_parents (fun m hm => ?_) hx
  rw [State.parentOf, s.container_joinLink x t m hxt, if_neg hm, State.parentOf]
  split
  next h =>
    subst h
    cases s.container m <;> rfl
  · rfl

theorem State.subContainers_joinLink (hxt : x ≠ t) (ht : t ∉ s.subContainers x) :
    (s.joinLink x t).subContainers x = s.subContainers x ∧ ∀ d, (s.joinLink x t).depths x d = s.depths x d :=
  State.subContainers_congr fun m hm => s.members_joinLink x t m hxt fun h => ht (h ▸ hm)

/-- The containers after a join, from those after its parent, member list and depths. -/
theorem State.container_joinContainer (hx : x ∉ s.chain t) (hchain : (s.chain t).Nodup) (m : Nat) :
    (s.joinContainer x t).container m =
      if m = x then
        (((s.joinLink x t).setDepths x (((s.container t).map (·.depth)).getD 0 + 1)).container x).map fun c =>
          { c with stamp := nextStamp c.stamp }
      else if m ∈ s.chain t then
        (((s.joinLink x t).setDepths x (((s.container t).map (·.depth)).getD 0 + 1)).container m).map fun c =>
          { c with subtree := c.subtree + s.subtreeCount x }
      else ((s.joinLink x t).setDepths x (((s.container t).map (·.depth)).getD 0 + 1)).container m := by
  rw [State.joinContainer_eq, State.chain_joinLink hx, State.bumpContainer, State.container_modContainer,
    State.container_addSubtree _ _ _ hchain, State.container_addSubtree _ _ _ hchain, if_neg hx]

variable (hx : x ∉ s.chain t) (hchain : (s.chain t).Nodup) (hsub : (s.subContainers x).Nodup)
  (ht : t ∉ s.subContainers x)

include hx hchain ht in
theorem State.container_join_apart {m : Nat} (hm : m ∉ s.subContainers x) (hmx : m ≠ t) :
    (s.joinContainer x t).container m =
      if m ∈ s.chain t then (s.container m).map fun c => { c with subtree := c.subtree + s.subtreeCount x }
      else s.container m := by
  have hxt : x ≠ t := fun h => hx (h ▸ s.self_mem_chain t)
  have hne : m ≠ x := fun h => hm (h ▸ s.self_mem_subContainers x)
  rw [State.container_joinContainer hx hchain, if_neg hne,
    State.container_setDepths_notMem (s := s.joinLink x t) (fun _ => rfl)
      (by rwa [(State.subContainers_joinLink hxt ht).1]),
    s.container_joinLink x t m hxt, if_neg hmx, if_neg hne]

include hx hchain ht in
theorem State.container_join_target :
    (s.joinContainer x t).container t =
      (s.container t).map fun c =>
        { c with members := c.members ++ [.container x], subtree := c.subtree + s.subtreeCount x } := by
  have hxt : x ≠ t := fun h => hx (h ▸ s.self_mem_chain t)
  rw [State.container_joinContainer hx hchain, if_neg hxt.symm, if_pos (s.self_mem_chain t),
    State.container_setDepths_notMem (s := s.joinLink x t) (fun _ => rfl)
      (by rwa [(State.subContainers_joinLink hxt ht).1]),
    s.container_joinLink x t t hxt, if_pos rfl, Option.map_map]
  rfl

include hx hchain hsub ht in
theorem State.container_join_self :
    (s.joinContainer x t).container x =
      (s.container x).map fun c =>
        { c with
          parent := some (.container t)
          depth := ((s.container t).map (·.depth)).getD 0 + 1
          stamp := nextStamp c.stamp } := by
  have hxt : x ≠ t := fun h => hx (h ▸ s.self_mem_chain t)
  obtain ⟨hsame, hdepths⟩ := State.subContainers_joinLink hxt ht
  rw [State.container_joinContainer hx hchain, if_pos rfl,
    State.container_setDepths_mem (s := s.joinLink x t) (fun _ => rfl) (by rwa [hsame]) State.self_mem_depths,
    s.container_joinLink x t x hxt, if_neg hxt, if_pos rfl, Option.map_map, Option.map_map]
  rfl

include hx hchain hsub ht in
theorem State.container_join_below {m e : Nat} (hm : (m, e) ∈ s.depths x (((s.container t).map (·.depth)).getD 0 + 1))
    (hne : m ≠ x) :
    (s.joinContainer x t).container m =
      if m ∈ s.chain t then
        (s.container m).map fun c => { c with depth := e, subtree := c.subtree + s.subtreeCount x }
      else (s.container m).map fun c => { c with depth := e } := by
  have hxt : x ≠ t := fun h => hx (h ▸ s.self_mem_chain t)
  have hmt : m ≠ t := fun h => ht (h ▸ State.mem_subContainers_of_depths hm)
  obtain ⟨hsame, hdepths⟩ := State.subContainers_joinLink hxt ht
  rw [State.container_joinContainer hx hchain, if_neg hne,
    State.container_setDepths_mem (s := s.joinLink x t) (fun _ => rfl) (by rwa [hsame]) (by rwa [hdepths]),
    s.container_joinLink x t m hxt, if_neg hmt, if_neg hne, Option.map_map]
  rfl

end Join

/-! The containers after a leave (R90, R99) -/

section Leave

variable {s : State} {x p : Nat}

/-- The member list, the counts and the parent of a leave, before its depths. -/
def State.leaveLink (s : State) (x p : Nat) : State :=
  ((s.dropMember p (.container x)).subSubtree (s.chain p) (s.subtreeCount x)).modContainer x fun c =>
    { c with parent := s.placeParent p }

theorem State.leaveContainer_eq (hp : s.parentOf x = some p) :
    s.leaveContainer x = ((s.leaveLink x p).setDepths x 1).bumpContainer x := by
  rw [State.leaveContainer, hp]
  rfl

theorem State.container_leaveLink (hchain : (s.chain p).Nodup) (hx : x ∉ s.chain p) (m : Nat) :
    (s.leaveLink x p).container m =
      if m = x then (s.container x).map fun c => { c with parent := s.placeParent p }
      else if m = p then
        (s.container p).map fun c =>
          { c with members := c.members.filter (· ≠ .container x), subtree := c.subtree - s.subtreeCount x }
      else if m ∈ s.chain p then (s.container m).map fun c => { c with subtree := c.subtree - s.subtreeCount x }
      else s.container m := by
  have hxp : x ≠ p := fun h => hx (h ▸ s.self_mem_chain p)
  rw [State.leaveLink, State.container_modContainer, State.container_subSubtree _ _ _ hchain,
    State.container_subSubtree _ _ _ hchain, if_neg hx, State.container_dropMember, if_neg hxp,
    State.container_dropMember]
  by_cases hmx : m = x
  · rw [if_pos hmx, if_pos hmx]
  rw [if_neg hmx, if_neg hmx]
  by_cases hmp : m = p
  · subst hmp
    rw [if_pos (s.self_mem_chain m), if_pos rfl, if_pos rfl, Option.map_map]
    rfl
  · rw [if_neg hmp, if_neg hmp]

theorem State.members_leaveLink (hchain : (s.chain p).Nodup) (hx : x ∉ s.chain p) {m : Nat} (hm : m ≠ p) :
    (s.leaveLink x p).members m = s.members m := by
  rw [State.members, State.container_leaveLink hchain hx, if_neg hm, State.members]
  split
  next h =>
    subst h
    cases s.container m <;> rfl
  · split
    · cases s.container m <;> rfl
    · rfl

theorem State.subContainers_leaveLink (hchain : (s.chain p).Nodup) (hx : x ∉ s.chain p) (hp : p ∉ s.subContainers x) :
    (s.leaveLink x p).subContainers x = s.subContainers x ∧ ∀ d, (s.leaveLink x p).depths x d = s.depths x d :=
  State.subContainers_congr fun _ hm => State.members_leaveLink hchain hx fun h => hp (h ▸ hm)

variable (hparent : s.parentOf x = some p) (hx : x ∉ s.chain p) (hchain : (s.chain p).Nodup)
  (hsub : (s.subContainers x).Nodup) (hp : p ∉ s.subContainers x)

include hparent hx hchain hp in
theorem State.container_leave_apart {m : Nat} (hm : m ∉ s.subContainers x) :
    (s.leaveContainer x).container m =
      if m = p then
        (s.container p).map fun c =>
          { c with members := c.members.filter (· ≠ .container x), subtree := c.subtree - s.subtreeCount x }
      else if m ∈ s.chain p then (s.container m).map fun c => { c with subtree := c.subtree - s.subtreeCount x }
      else s.container m := by
  have hne : m ≠ x := fun h => hm (h ▸ s.self_mem_subContainers x)
  rw [State.leaveContainer_eq hparent, State.bumpContainer, State.container_modContainer, if_neg hne,
    State.container_setDepths_notMem (s := s.leaveLink x p) (fun _ => rfl)
      (by rwa [(State.subContainers_leaveLink hchain hx hp).1]),
    State.container_leaveLink hchain hx, if_neg hne]

include hparent hx hchain hsub hp in
theorem State.container_leave_self :
    (s.leaveContainer x).container x =
      (s.container x).map fun c =>
        { c with parent := s.placeParent p, depth := 1, stamp := nextStamp c.stamp } := by
  obtain ⟨hsame, -⟩ := State.subContainers_leaveLink hchain hx hp
  rw [State.leaveContainer_eq hparent, State.bumpContainer, State.container_modContainer, if_pos rfl,
    State.container_setDepths_mem (s := s.leaveLink x p) (fun _ => rfl) (by rwa [hsame]) State.self_mem_depths,
    State.container_leaveLink hchain hx, if_pos rfl, Option.map_map, Option.map_map]
  rfl

include hparent hx hchain hsub hp in
theorem State.container_leave_below {m e : Nat} (hm : (m, e) ∈ s.depths x 1) (hne : m ≠ x) :
    (s.leaveContainer x).container m =
      if m ∈ s.chain p then
        (s.container m).map fun c => { c with depth := e, subtree := c.subtree - s.subtreeCount x }
      else (s.container m).map fun c => { c with depth := e } := by
  have hmp : m ≠ p := fun h => hp (h ▸ State.mem_subContainers_of_depths hm)
  obtain ⟨hsame, hdepths⟩ := State.subContainers_leaveLink hchain hx hp
  rw [State.leaveContainer_eq hparent, State.bumpContainer, State.container_modContainer, if_neg hne,
    State.container_setDepths_mem (s := s.leaveLink x p) (fun _ => rfl) (by rwa [hsame]) (by rwa [hdepths]),
    State.container_leaveLink hchain hx, if_neg hne, if_neg hmp]
  split
  · rw [Option.map_map]
    rfl
  · rfl

end Leave

/-- A container below the item is another than the item. -/
theorem State.below_ne_self {s : State} {x m : Nat} (hsub : (s.subContainers x).Nodup)
    (h : m ∈ (s.subContainers x).tail) : m ≠ x := by
  rintro rfl
  exact (List.nodup_cons.1 hsub).1 h

theorem State.member_mem_tail {s : State} {x m : Nat} (h : Item.container m ∈ s.members x) :
    m ∈ (s.subContainers x).tail :=
  List.mem_flatMap.2 ⟨_, h, List.mem_cons_self⟩

theorem State.below_mem_tail {s : State} {x m q : Nat} (h : Item.container m ∈ s.members x)
    (hq : Item.container q ∈ s.members m) : q ∈ (s.subContainers x).tail :=
  List.mem_flatMap.2 ⟨_, h, List.mem_cons_of_mem _ (List.mem_flatMap.2 ⟨_, hq, List.mem_cons_self⟩)⟩

end Sys2Proof.Machine

/-! PROOFS. NEST (R94 to R96). -/

namespace Sys2Proof.Machine

-- One proof after another: elaborated side by side, so many short ones outgrow the memory a compile may take.
set_option Elab.async false

open Sys2Proof

/-! The conditions of NEST -/

section Conditions

variable {g : State} {n x t : Nat} {k : Carrier}

theorem State.sameZone_iff {it : Item} :
    g.sameZone it t = true ↔ g.itemZone it ≠ none ∧ g.itemZone it = g.itemZone (.container t) := by
  unfold State.sameZone
  cases g.itemZone it <;> cases g.itemZone (.container t) <;> simp

/-- The first condition of R94 that fails for a carrier, the target being a container. -/
theorem State.nestRefusal_carrier (hk : g.carrier n = some k) :
    g.nestRefusal (.carrier n) (.container x) =
      if Parent.container? k.parent ≠ none then some 0x19
      else if ¬(k.zone ≠ none ∧ k.zone = g.itemZone (.container x)) then some 0x2A
      else if ∃ m ∈ (g.chain x).drop 1, g.inTransit (.container m) = true then some 0x20
      else if ¬((g.members x).length < 64 ∧ ∀ m ∈ g.chain x, g.subtreeCount m + 1 ≤ 256) then some 0x1A
      else none := by
  have hparent : ((Parent.container? (g.itemParent (.carrier n))).isSome = true) =
      (Parent.container? k.parent ≠ none) := by
    rw [Option.isSome_iff_ne_none, State.itemParent, hk]
    rfl
  have hzone : ((!g.sameZone (.carrier n) x) = true) = ¬(k.zone ≠ none ∧ k.zone = g.itemZone (.container x)) := by
    have hitem : g.itemZone (.carrier n) = k.zone := by
      rw [State.itemZone, hk]
      rfl
    rw [← hitem, ← State.sameZone_iff, Bool.not_eq_true', ← Bool.not_eq_true]
  have htransit : (g.nestTransit (.carrier n) x = true) =
      ∃ m ∈ (g.chain x).drop 1, g.inTransit (.container m) = true := by
    simp [State.nestTransit]
  have hfits : ((!g.nestFits (.carrier n) x) = true) =
      ¬((g.members x).length < 64 ∧ ∀ m ∈ g.chain x, g.subtreeCount m + 1 ≤ 256) := by
    rw [Bool.not_eq_true', ← Bool.not_eq_true]
    simp only [State.nestFits, Bool.and_true, Bool.and_eq_true, decide_eq_true_eq,
      List.all_eq_true]
    rfl
  have hself : ¬(g.nestsIntoItself (.carrier n) x = true) := Bool.false_ne_true
  rw [State.nestRefusal]
  simp only [hparent, hzone, htransit, hfits, if_neg hself]
  rfl

/-- The first condition of R94 that fails for a container, the target being a container. -/
theorem State.nestRefusal_container :
    g.nestRefusal (.container x) (.container t) =
      if g.parentOf x ≠ none then some 0x19
      else if ¬(g.itemZone (.container x) ≠ none ∧ g.itemZone (.container x) = g.itemZone (.container t)) then some 0x2A
      else if t ∈ g.subContainers x then some 0x18
      else if (∃ m ∈ (g.chain t).drop 1, g.inTransit (.container m) = true) ∨ g.subtreeInTransit x = true then some 0x20
      else if ¬((g.members t).length < 64 ∧ (∀ m ∈ g.chain t, g.subtreeCount m + g.subtreeCount x ≤ 256) ∧
          ((g.container t).map (·.depth)).getD 0 + g.height x ≤ 3) then some 0x1A
      else none := by
  have hparent : ((Parent.container? (g.itemParent (.container x))).isSome = true) = (g.parentOf x ≠ none) := by
    rw [Option.isSome_iff_ne_none]
    rfl
  have hzone : ((!g.sameZone (.container x) t) = true) =
      ¬(g.itemZone (.container x) ≠ none ∧ g.itemZone (.container x) = g.itemZone (.container t)) := by
    rw [← State.sameZone_iff, Bool.not_eq_true', ← Bool.not_eq_true]
  have hself : (g.nestsIntoItself (.container x) t = true) = (t ∈ g.subContainers x) := by
    simp [State.nestsIntoItself]
  have htransit : (g.nestTransit (.container x) t = true) =
      ((∃ m ∈ (g.chain t).drop 1, g.inTransit (.container m) = true) ∨ g.subtreeInTransit x = true) := by
    simp [State.nestTransit]
  have hfits : ((!g.nestFits (.container x) t) = true) =
      ¬((g.members t).length < 64 ∧ (∀ m ∈ g.chain t, g.subtreeCount m + g.subtreeCount x ≤ 256) ∧
          ((g.container t).map (·.depth)).getD 0 + g.height x ≤ 3) := by
    rw [Bool.not_eq_true', ← Bool.not_eq_true]
    simp only [State.nestFits, Bool.and_eq_true, decide_eq_true_eq, List.all_eq_true,
      and_assoc]
    rfl
  rw [State.nestRefusal]
  simp only [hparent, hzone, hself, htransit, hfits]
  rfl

end Conditions

/-! Two states with the same containers -/

section Containers

variable {s t : State} (h : t.containers = s.containers)

include h

theorem State.container_congr (n : Nat) : t.container n = s.container n := by
  rw [State.container, h]
  rfl

theorem State.members_congr (n : Nat) : t.members n = s.members n := by
  rw [State.members, State.container_congr h]
  rfl

theorem State.subtreeCount_congr (n : Nat) : t.subtreeCount n = s.subtreeCount n := by
  rw [State.subtreeCount, State.container_congr h]
  rfl

theorem State.packedFlag_congr (n : Nat) : t.packedFlag n = s.packedFlag n := by
  rw [State.packedFlag, State.container_congr h]
  rfl

theorem State.inTransit_congr (n : Nat) : t.inTransit (.container n) = s.inTransit (.container n) := by
  rw [State.inTransit, State.container_congr h]
  rfl

theorem State.itemZone_congr (n : Nat) : t.itemZone (.container n) = s.itemZone (.container n) := by
  rw [State.itemZone, State.container_congr h]
  rfl

theorem State.chainOfParent_congr (p : Option Parent) : t.chainOfParent p = s.chainOfParent p := by
  unfold State.chainOfParent
  cases Parent.container? p with
  | none => rfl
  | some n => exact State.chain_congr h n

theorem State.placeParent_congr (n : Nat) : t.placeParent n = s.placeParent n := by
  unfold State.placeParent State.placeOf State.topOf
  rw [State.chain_congr h, State.container_congr h]

theorem State.modeUnder_congr (hair : s.airKept t) (p : Option Parent) (zone : Option Nat) (packed : Bool) :
    t.modeUnder p zone packed = s.modeUnder p zone packed := by
  have hflags : t.packedFlag = s.packedFlag := funext (State.packedFlag_congr h)
  rw [State.modeUnder, State.airKept_modeIn hair, State.chainOfParent_congr h, hflags]
  rfl

end Containers

/-! Step 8 of NEST -/

/-- The state NEST's conditions meet: both claims reloaded (R94, R151). -/
def State.nestEight (s : State) (l : Link) (i : Instr) (it ta : Item) : State := (s.stepEight l i it).reloadClaim l ta

section NestEight

variable {s : State} {l : Link} {i : Instr} {tag : Byte} {label target : Label} {stamp : Option Half} {it ta : Item}
  {n x : Nat} {c : Carrier}

/-- NEST passes steps 3 to 7 for both items (R94). -/
theorem State.checkNest_passes (hp : s.passes l label (stampOperand stamp) it) (hf : s.find target = some ta)
    (ht : s.inTransit ta = false) (hc : s.otherClaim l ta = none) :
    (s.granted l i).checkNest l label target (stampOperand stamp) = .passed (s.nestEight l i it ta) it := by
  obtain ⟨hfind, htransit, hclaim, hstamp, hq⟩ := hp
  rw [State.checkNest_found (it := it) (ta := ta) (by simpa using hfind) (by simpa using hf) (by simpa using htransit)
    (by simpa using ht), State.checkClaim_free (by simpa using hclaim),
    State.checkClaim_free (by rw [State.otherClaim_reloadClaim, State.granted_otherClaim]; exact hc)]
  refine State.checkStamp_passed ?_ ?_
  · simpa using hstamp
  · cases l <;> exact hq

theorem exec_nest {q : State × List Byte} (hi : i = .nest l tag label target stamp) (hg : s.grants l i = true)
    (hp : s.passes l label (stampOperand stamp) it) (hf : s.find target = some ta) (ht : s.inTransit ta = false)
    (hc : s.otherClaim l ta = none)
    (hq : runChecked (.passed (s.nestEight l i it ta) it) (nestCarrier ta) (nestContainer l ta) = q) :
    exec i s = .next (q.1.ends l 0x14 tag q.2) := by
  subst hi
  refine (serve_granted (own := ownNest l label target stamp) rfl hg).trans ?_
  have hfind : (s.granted l (.nest l tag label target stamp)).find target = some ta := by simpa using hf
  rw [ownNest, State.checkNest_passes hp hf ht hc, hfind, Option.getD_some, hq]
  rfl

theorem State.nestEight_movesOnly : s.movesOnly (s.nestEight l i it ta) := by
  cases l <;> rfl

theorem State.nestEight_carrier (m : Nat) : (s.nestEight l i it ta).carrier m = s.carrier m := by
  cases l <;> rfl

theorem State.nestEight_settled : (s.nestEight l i it ta).settled c = s.settled c := by
  have hreload : (s.nestEight l i it ta).settled c = (s.stepEight l i it).settled c :=
    State.settled_congr c rfl rfl rfl rfl
  rw [hreload, State.stepEight_settled]

theorem State.nestEight_airKept : s.airKept (s.nestEight l i it ta) := fun m => by
  have hzone : (s.nestEight l i it ta).zone m = s.zone m := s.stepEight_zone l i it m
  rw [hzone]

/-- The state a carrier's NEST meets after its settle. -/
def State.nestSettled (s : State) (l : Link) (i : Instr) (n : Nat) (ta : Item) : State :=
  ((s.nestEight l i (.carrier n) ta).settle n).1

theorem State.nestSettled_movesOnly : s.movesOnly (s.nestSettled l i n ta) :=
  State.nestEight_movesOnly.trans (State.movesOnly_settle _ n)

theorem State.nestSettled_containers : (s.nestSettled l i n ta).containers = s.containers := by
  rw [State.nestSettled_movesOnly (s := s)]

theorem State.nestSettled_airKept : s.airKept (s.nestSettled l i n ta) :=
  State.airKept_trans State.nestEight_airKept (State.airKept_settle _ n)

theorem State.nestSettled_same (hc : s.carrier n = some c) :
    (s.nestSettled l i n ta).carrier n = some (s.settled c).1 := by
  rw [State.nestSettled, State.carrier_settle, if_pos rfl, State.nestEight_carrier, hc, Option.map_some,
    State.nestEight_settled]

theorem State.nestSettled_others {m : Nat} (hm : m ≠ n) : (s.nestSettled l i n ta).carrier m = s.carrier m := by
  rw [State.nestSettled, State.carrier_settle, if_neg hm, State.nestEight_carrier]

/-- A carrier's NEST is its conditions, and then the move, on the settled record. -/
theorem nestCarrier_eq (hc : s.carrier n = some c) :
    nestCarrier ta n (s.nestEight l i (.carrier n) ta) =
      match (s.nestSettled l i n ta).nestRefusal (.carrier n) ta with
      | some st =>
        (s.nestSettled l i n ta).refuseCarrier n
          (decide (c.life ≠ (s.settled c).1.life) || decide (c.bakeCount ≠ (s.settled c).1.bakeCount)) st []
      | none => nestCarrierInto (itemNumber ta) n (s.settled c).1 (s.nestSettled l i n ta) := by
  rw [nestCarrier, withSettled_eq _ (by rwa [State.nestEight_carrier]), State.nestEight_settled]
  rfl

end NestEight

/-- The containers of an accepted carrier NEST (R90, R95). -/
theorem State.nestedCarrier_containers {w : State} {x n : Nat} (hchain : (w.chain x).Nodup) :
    let u := (w.addMember x (.carrier n)).addSubtree (w.chain x) 1
    u.members x = w.members x ++ (match w.container x with
      | none => []
      | some _ => [.carrier n]) ∧
      u.stampOf (.container x) = w.stampOf (.container x) ∧
      (∀ m ∈ w.chain x, w.container m ≠ none → u.subtreeCount m = w.subtreeCount m + 1) ∧
      ∀ m, m ∉ w.chain x → u.container m = w.container m := by
  intro u
  have hucontainer (m : Nat) := (w.addMember x (.carrier n)).container_addSubtree 1 m hchain
  refine ⟨?_, ?_, fun m hm hlive => ?_, fun m hm => ?_⟩
  · rw [State.members_addSubtree, State.members, State.container_addMember, if_pos rfl, State.members]
    cases w.container x <;> rfl
  · rw [State.stampOf, hucontainer, if_pos (w.self_mem_chain x), State.container_addMember, if_pos rfl, State.stampOf]
    cases w.container x <;> rfl
  · obtain ⟨c, hc⟩ := Option.ne_none_iff_exists'.1 hlive
    rw [State.subtreeCount, hucontainer, if_pos hm, State.container_addMember, State.subtreeCount]
    split
    next hmx =>
      subst hmx
      rw [hc]
      rfl
    · rw [hc]
      rfl
  · have hmx : m ≠ x := fun h => hm (h ▸ w.self_mem_chain x)
    rw [hucontainer, if_neg hm, State.container_addMember, if_neg hmx]

/-! NEST and UNNEST of a container -/

section Reparent

variable {s g : State} {l : Link} {i : Instr} {it ta : Item} {x t p : Nat} {c : Container}

theorem State.nestEight_nestRefusal (a b : Item) :
    (s.nestEight l i it ta).nestRefusal a b = s.nestRefusal a b := by
  cases l <;> rfl

theorem State.nestEight_needsReparent (a b : Nat) :
    (s.nestEight l i it ta).needsReparent a b = s.needsReparent a b := by
  cases l <;> rfl

theorem State.nestEight_chain (a : Nat) : (s.nestEight l i it ta).chain a = s.chain a := by
  cases l <;> rfl

theorem State.nestEight_subCarriers (a : Nat) : (s.nestEight l i it ta).subCarriers a = s.subCarriers a := by
  cases l <;> rfl

theorem State.nestEight_subContainers (a : Nat) : (s.nestEight l i it ta).subContainers a = s.subContainers a := by
  cases l <;> rfl

theorem State.nestEight_stampOf (a : Item) : (s.nestEight l i it ta).stampOf a = s.stampOf a := by
  cases l <;> cases a <;> rfl

theorem State.nestEight_batches : (s.nestEight l i it ta).batches = s.batches := by cases l <;> rfl

theorem State.nestEight_nextBatch : (s.nestEight l i it ta).nextBatch = s.nextBatch := by cases l <;> rfl

theorem State.nestEight_container (a : Nat) : (s.nestEight l i it ta).container a = s.container a := by
  cases l <;> rfl

theorem State.needsReparent_iff :
    s.needsReparent x t = true ↔ s.packedFlag x = false ∧ s.effectivelyPacked t = true ∧ 0 < s.subtreeCount x := by
  simp [State.needsReparent, and_assoc]

/-- A REPARENT batch, or FULL (R96, R99, R125). -/
theorem queueReparent_eq (job : BatchJob) (above : Nat) :
    queueReparent l job x above g =
      if 8 ≤ g.batches.length then (g, [0x15] ++ u16 (g.stampOf (.container x)) ++ [0xFF])
      else
        (g.acceptBatch job l (g.subCarriers x) (g.subContainers x ++ g.chain above),
          [0x01] ++ u16 (g.stampOf (.container x)) ++ [0xFF] ++ u8 g.nextBatch) := by
  simp only [queueReparent, State.not_batchRoom, State.refuseContainer_eq, queuedReply_acceptBatch, stFull]

theorem State.stampOf_joinContainer (hc : s.container x = some c) :
    (s.joinContainer x t).stampOf (.container x) = nextStamp (s.stampOf (.container x)) := by
  rw [State.stampOf, State.stamp_joinContainer, State.stampOf, hc]
  rfl

theorem State.stampOf_leaveContainer (hp : s.parentOf x = some p) (hc : s.container x = some c) :
    (s.leaveContainer x).stampOf (.container x) = nextStamp (s.stampOf (.container x)) := by
  rw [State.stampOf, State.stamp_leaveContainer hp, State.stampOf, hc]
  rfl

theorem State.doneContainer_eq (s : State) (x : Nat) :
    s.doneContainer x = (s, [0x00] ++ u16 (s.stampOf (.container x)) ++ [0xFF]) := rfl

theorem nestContainer_refused {st : Byte} (h : g.nestRefusal (.container x) ta = some st) :
    nestContainer l ta x g = (g, [st] ++ u16 (g.stampOf (.container x)) ++ [0xFF]) := by
  rw [nestContainer, h]
  exact State.refuseContainer_eq ..

end Reparent

/-- Settles O43: R94's conditions in their order, on the settled record of a carrier; then the move with the join of its
containers, the join of a container, or a REPARENT batch. -/
theorem nestPutsIn : Obligations.NestPutsIn := by
  refine ⟨?_, ?_, ?_, ?_, ?_⟩
  case refine_1 =>
    rintro s l tag label target stamp n x z c i hi hg hp hf ht hclaim hc hparent hzone htarget habove hroom hcounts hchain
    obtain ⟨kcls, kpacked, kparent, kzone, kmode, -, -, khold, kstamp, -⟩ := s.settled_kept c
    obtain ⟨g, hgdef⟩ : ∃ g, g = s.nestSettled l i n (.container x) := ⟨_, rfl⟩
    have hgcontainers : g.containers = s.containers := hgdef ▸ State.nestSettled_containers
    have hgair : s.airKept g := hgdef ▸ State.nestSettled_airKept
    have hgonly : s.movesOnly g := hgdef ▸ State.nestSettled_movesOnly
    have hgk : g.carrier n = some (s.settled c).1 := hgdef ▸ State.nestSettled_same hc
    have hrefusal : g.nestRefusal (.carrier n) (.container x) = none := by
      rw [State.nestRefusal_carrier hgk, kparent, kzone, State.itemZone_congr hgcontainers, State.chain_congr hgcontainers,
        State.members_congr hgcontainers, if_neg (not_not.2 hparent),
        if_neg (not_not.2 ⟨by simp [hzone], by rw [hzone, htarget]⟩)]
      rw [if_neg, if_neg (not_not.2 ⟨hroom, fun m hm => by rw [State.subtreeCount_congr hgcontainers]; exact hcounts m hm⟩)]
      rintro ⟨m, hm, htransit⟩
      rw [State.inTransit_congr hgcontainers, habove m hm] at htransit
      exact Bool.false_ne_true htransit
    obtain ⟨r, hr⟩ : ∃ r : Residence, r =
        { parent := some (.container x), packed := c.packed, zone := some z,
          mode := s.modeUnder (some (.container x)) (some z) c.packed } := ⟨_, rfl⟩
    obtain ⟨d, hd, dparent, dpacked, dzone, dmode, dstamp, -, -, hmoved⟩ :=
      State.moveCarrier_record (r := r) hgk kzone kmode kstamp
    obtain ⟨w, hw⟩ : ∃ w, w = g.moveCarrier n (s.settled c).1 r := ⟨_, rfl⟩
    rw [← hw] at hd hmoved
    have hwonly : s.movesOnly w := hw ▸ hgonly.trans (g.movesOnly_moveCarrier n _ r)
    have hwcontainers : w.containers = s.containers := by rw [hwonly]
    have hwair : s.airKept w := hw ▸ State.airKept_trans hgair (g.airKept_moveCarrier n _ r)
    have hwothers (m : Nat) (hm : m ≠ n) : w.carrier m = s.carrier m := by
      rw [hw, State.moveCarrier_others hgk hm, hgdef, State.nestSettled_others hm]
    have hwchain : w.chain x = s.chain x := State.chain_congr hwcontainers x
    obtain ⟨t, htdef⟩ : ∃ t, t = (w.addMember x (.carrier n)).addSubtree (w.chain x) 1 := ⟨_, rfl⟩
    have hteta : t = { w with containers := t.containers } :=
      htdef ▸ containers_trans (w.addMember_eta x _) (State.addSubtree_eta ..)
    obtain ⟨hmembers, hstamp, hcount, hrest⟩ :=
      State.nestedCarrier_containers (n := n) (hwchain ▸ hchain : (w.chain x).Nodup)
    rw [← htdef] at hmembers hstamp hcount hrest
    have htd : t.carrier n = some d := by rw [hteta]; exact hd
    have hown : runChecked (.passed (s.nestEight l i (.carrier n) (.container x)) (.carrier n))
        (nestCarrier (.container x)) (nestContainer l (.container x)) =
          (t, [0x00] ++ u16 (nextStamp c.stamp) ++ [lifeCode d.life] ++ orNone (some z) ++ [modeCode d.mode]) := by
      have hinto : nestCarrierInto x n (s.settled c).1 g = (t, t.doneMoved n) := by
        rw [nestCarrierInto, kpacked, kzone, hzone, State.modeUnder_congr hgcontainers hgair]
        simp only [← hr, ← hw, ← htdef]
      refine (nestCarrier_eq hc).trans ?_
      rw [← hgdef, hrefusal]
      refine hinto.trans ?_
      simp only [State.doneMoved, State.pastStep8, htd, dstamp, dzone.trans (by rw [hr])]
      simp [stDone]
    obtain ⟨cx, hcx⟩ : ∃ cx, s.container x = some cx := by
      cases hx : s.container x with
      | none =>
        rw [State.itemZone, hx] at htarget
        exact nomatch htarget
      | some cx => exact ⟨cx, rfl⟩
    have hwlive : w.container x = some cx := (State.container_congr hwcontainers x).trans hcx
    refine ⟨_, d, exec_nest hi hg hp hf ht hclaim hown, by rw [State.ends_carrier, htd], dparent.trans (by rw [hr]),
      dpacked.trans (by rw [hr]), dzone.trans (by rw [hr]), dmode.trans (by rw [hr]), dstamp, ?_, ?_, ?_, fun m hm hlive => ?_,
      fun m hm => ?_, fun m hm => ?_, fun m => ?_, ?_, ?_, ?_⟩
    case refine_1 =>
      rw [← hr]
      have hsame : (((s.stepEight l i (.carrier n)).reloadClaim l (.container x)).settle n).1 = g := hgdef.symm
      rw [hsame]
      refine State.carrierMoved.ends ?_ ..
      obtain ⟨h1, h2, h3, h4, h5, h6, h7, h8⟩ := hmoved
      rw [hteta]
      exact ⟨h1, h2, h3, h4, h5, h6, h7, h8⟩
    case refine_2 =>
      rw [State.ends_members, hmembers, hwlive, State.members_congr hwcontainers]
    case refine_3 =>
      rw [State.ends_stampOf, hstamp, State.stampOf, State.container_congr hwcontainers]
      rfl
    case refine_4 =>
      rw [State.ends_subtreeCount, hcount m (hwchain ▸ hm) (by rwa [State.container_congr hwcontainers]),
        State.subtreeCount_congr hwcontainers]
    case refine_5 =>
      rw [State.ends_container, hrest m (hwchain ▸ hm), State.container_congr hwcontainers]
    case refine_6 =>
      rw [State.ends_carrier, hteta]
      exact hwothers m hm
    case refine_7 =>
      rw [State.ends_zone, hteta]
      exact hwair m
    case refine_8 => rw [State.ends_batches, hteta, hwonly]
    case refine_9 =>
      have hformed : s.containsOnly t := by
        unfold State.containsOnly State.movesOnly
        rw [hteta, hwonly]
      exact hformed.containsOnly_ends ..
    case refine_10 =>
      refine (congrArg LinkState.hand (t.ends_link ..)).trans ?_
      simp
  case refine_2 =>
    rintro s g l tag label target stamp x t z i hi hg hp hf ht hclaim hparent hxzone htzone hself habove htransit hroom
      hcounts hdepth hgdef
    rw [← State.nestEight] at hgdef
    have hexec {q : State × List Byte} (hq : nestContainer l (.container t) x g = q) :
        exec i s = .next (q.1.ends l 0x14 tag q.2) := by
      rw [hgdef] at hq
      exact exec_nest hi hg hp hf ht hclaim hq
    have hrefusal : g.nestRefusal (.container x) (.container t) = none := by
      rw [hgdef, State.nestEight_nestRefusal, State.nestRefusal_container, if_neg (not_not.2 hparent),
        if_neg (not_not.2 ⟨by simp [hxzone], hxzone.trans htzone.symm⟩), if_neg hself, if_neg,
        if_neg (not_not.2 ⟨hroom, hcounts, hdepth⟩)]
      rintro (⟨m, hm, hmoving⟩ | hmoving)
      · exact Bool.false_ne_true ((habove m hm).symm.trans hmoving)
      · exact Bool.false_ne_true (htransit.symm.trans hmoving)
    obtain ⟨cx, hcx⟩ : ∃ cx, g.container x = some cx := by
      cases hx : s.container x with
      | none =>
        rw [State.itemZone, hx] at hxzone
        exact nomatch hxzone
      | some cx => exact ⟨cx, by rw [hgdef, State.nestEight_container, hx]⟩
    have hown : nestContainer l (.container t) x g =
        if g.needsReparent x t then queueReparent l (.nesting x t) x t g else (g.joinContainer x t).doneContainer x := by
      rw [nestContainer, hrefusal]
      rfl
    rw [queueReparent_eq, State.doneContainer_eq, State.stampOf_joinContainer hcx] at hown
    have hstamp : g.stampOf (.container x) = s.stampOf (.container x) := hgdef ▸ State.nestEight_stampOf _
    have hreparent : g.needsReparent x t = s.needsReparent x t := hgdef ▸ State.nestEight_needsReparent ..
    have hbatches : g.batches = s.batches := hgdef ▸ State.nestEight_batches
    rw [hstamp, hreparent, hbatches] at hown
    refine ⟨fun hnot => ?_, fun hpacked heff hcount => ⟨fun hfew => ?_, fun hfull => ?_⟩⟩
    · have hno : ¬s.needsReparent x t = true := by
        rw [State.needsReparent_iff]
        rintro ⟨h1, h2, h3⟩
        rcases hnot with h | h | h
        · exact Bool.false_ne_true (h1.symm.trans h)
        · exact Bool.false_ne_true (h.symm.trans h2)
        · exact absurd h3 (by omega)
      rw [if_neg hno] at hown
      exact hexec hown
    all_goals rw [if_pos (State.needsReparent_iff.2 ⟨hpacked, heff, hcount⟩)] at hown
    · have hcarriers : g.subCarriers x = s.subCarriers x := hgdef ▸ State.nestEight_subCarriers x
      have hcontainers : g.subContainers x = s.subContainers x := hgdef ▸ State.nestEight_subContainers x
      have hchain : g.chain t = s.chain t := hgdef ▸ State.nestEight_chain t
      have hnext : g.nextBatch = s.nextBatch := hgdef ▸ State.nestEight_nextBatch
      rw [if_neg (Nat.not_le.2 hfew), hcarriers, hcontainers, hchain, hnext] at hown
      exact hexec hown
    · rw [if_pos hfull] at hown
      exact hexec hown
  case refine_3 =>
    rintro s g l tag label target stamp n c k ta i hi hg hp hf ht hclaim hc rfl hgdef
    have hgdef : g = s.nestSettled l i n ta := hgdef
    obtain ⟨-, -, kparent, kzone, -, -, -, -, kstamp, -⟩ := s.settled_kept c
    have hgcontainers : g.containers = s.containers := hgdef ▸ State.nestSettled_containers
    have hgk : g.carrier n = some (s.settled c).1 := hgdef ▸ State.nestSettled_same hc
    have hrefused {st : Byte} (h : g.nestRefusal (.carrier n) ta = some st) :
        exec i s = .next (g.refusesAtEight l 0x14 tag n c (s.settled c).1 st []) := by
      have hown := nestCarrier_eq (l := l) (i := i) (ta := ta) hc
      rw [← hgdef, h] at hown
      exact (exec_nest hi hg hp hf ht hclaim hown).trans
        (congrArg Host.Outcome.next (State.refuseCarrier_eq l 0x14 tag st [] hgk kstamp))
    refine ⟨fun m hm => hrefused (by rw [hm]; rfl), fun x hx => ?_⟩
    subst hx
    have hcases := State.nestRefusal_carrier (x := x) hgk
    rw [kparent, kzone, State.itemZone_congr hgcontainers, State.chain_congr hgcontainers,
      State.members_congr hgcontainers] at hcases
    simp only [State.inTransit_congr hgcontainers, State.subtreeCount_congr hgcontainers] at hcases
    refine ⟨fun hparent => ?_, fun hparent hzone => ?_, fun hparent hzone hsame => ⟨fun hmoving => ?_, fun hstill hover => ?_⟩⟩
    · rw [if_pos hparent] at hcases
      exact hrefused hcases
    all_goals rw [if_neg (not_not.2 hparent)] at hcases
    · rw [if_pos fun h => hzone.elim (fun h' => h.1 h') fun h' => h' h.2] at hcases
      exact hrefused hcases
    all_goals rw [if_neg (not_not.2 ⟨hzone, hsame⟩)] at hcases
    · rw [if_pos hmoving] at hcases
      exact hrefused hcases
    · have hrest : ¬∃ m ∈ (s.chain x).drop 1, s.inTransit (.container m) = true := by
        rintro ⟨m, hm, hmoving⟩
        exact Bool.false_ne_true ((hstill m hm).symm.trans hmoving)
      have hfits : ¬((s.members x).length < 64 ∧ ∀ m ∈ s.chain x, s.subtreeCount m + 1 ≤ 256) := by
        rintro ⟨hroom, hcounts⟩
        rcases hover with hfull | ⟨m, hm, hlarge⟩
        · exact absurd hroom (Nat.not_lt.2 hfull)
        · exact absurd (hcounts m hm) (Nat.not_le.2 hlarge)
      rw [if_neg hrest, if_pos hfits] at hcases
      exact hrefused hcases
  case refine_4 =>
    rintro s g l tag label target stamp x ta i no hi hg hp hf ht hclaim hgdef hno
    have hgdef : g = s.nestEight l i (.container x) ta := hgdef
    have hstamp : g.stampOf (.container x) = s.stampOf (.container x) := hgdef ▸ State.nestEight_stampOf _
    have hrefused {st : Byte} (h : s.nestRefusal (.container x) ta = some st) : exec i s = .next (no st) := by
      have hgr : g.nestRefusal (.container x) ta = some st := by
        rw [hgdef, State.nestEight_nestRefusal, h]
      have hown := nestContainer_refused (l := l) hgr
      rw [hstamp, hgdef] at hown
      rw [hno, hgdef]
      exact exec_nest hi hg hp hf ht hclaim hown
    refine ⟨fun m hm => hrefused (by rw [hm]; rfl), fun t hta => ?_⟩
    subst hta
    have hcases := s.nestRefusal_container (x := x) (t := t)
    refine ⟨fun hparent => ?_, fun hparent hzone => ?_, fun hparent hzone hsame => ⟨fun hself => ?_, fun hself =>
      ⟨fun hmoving => ?_, fun hstill hrest hover => ?_⟩⟩⟩
    · rw [if_pos hparent] at hcases
      exact hrefused hcases
    all_goals rw [if_neg (not_not.2 hparent)] at hcases
    · rw [if_pos fun h => hzone.elim (fun h' => h.1 h') fun h' => h' h.2] at hcases
      exact hrefused hcases
    all_goals rw [if_neg (not_not.2 ⟨hzone, hsame⟩)] at hcases
    · rw [if_pos hself] at hcases
      exact hrefused hcases
    all_goals rw [if_neg hself] at hcases
    · rw [if_pos hmoving] at hcases
      exact hrefused hcases
    · have hnot : ¬((∃ m ∈ (s.chain t).drop 1, s.inTransit (.container m) = true) ∨ s.subtreeInTransit x = true) := by
        rintro (⟨m, hm, hmoving⟩ | hmoving)
        · exact Bool.false_ne_true ((hstill m hm).symm.trans hmoving)
        · exact Bool.false_ne_true (hrest.symm.trans hmoving)
      have hfits : ¬((s.members t).length < 64 ∧ (∀ m ∈ s.chain t, s.subtreeCount m + s.subtreeCount x ≤ 256) ∧
          ((s.container t).map (·.depth)).getD 0 + s.height x ≤ 3) := by
        rintro ⟨hroom, hcounts, hdepth⟩
        rcases hover with hfull | ⟨m, hm, hlarge⟩ | hdeep
        · exact absurd hroom (Nat.not_lt.2 hfull)
        · exact absurd (hcounts m hm) (Nat.not_le.2 hlarge)
        · exact absurd hdepth (Nat.not_le.2 hdeep)
      rw [if_neg hnot, if_pos hfits] at hcases
      exact hrefused hcases
  case refine_5 =>
    rintro s u x t cx ct hcx hct hxt hx hchain hsub ht rfl
    have hself := State.container_join_self hx hchain hsub ht
    have htarget := State.container_join_target hx hchain ht
    have hcount : s.subtreeCount x = cx.subtree := by rw [State.subtreeCount, hcx]; rfl
    have hdepth : ((s.container t).map (·.depth)).getD 0 = ct.depth := by rw [hct]; rfl
    rw [hcx, hdepth] at hself
    rw [hct, hcount] at htarget
    have hmembers : s.members x = cx.members := by rw [State.members, hcx]; rfl
    have hbelow {m e : Nat} (hm : (m, e) ∈ s.depths x (ct.depth + 1)) (hne : m ≠ x) :=
      State.container_join_below hx hchain hsub ht (hdepth.symm ▸ hm) hne
    have hdepthOf {m e : Nat} (hm : (m, e) ∈ s.depths x (ct.depth + 1)) (hne : m ≠ x) :
        ((s.joinContainer x t).container m).map (·.depth) = (s.container m).map fun _ => e := by
      rw [hbelow hm hne]
      split <;> cases s.container m <;> rfl
    refine ⟨by rw [hself]; rfl, by rw [State.members, htarget]; rfl, by rw [State.stampOf, htarget]; rfl,
      by rw [State.subtreeCount, htarget]; rfl, by rw [State.joinContainer_eta], fun m hm => ?_, fun m q hm hq => ?_,
      fun m hm hne hnot => ?_, fun m hm hmt hnot => ?_, fun m hm hnot => ?_, State.joinContainer_eta ..⟩
    case refine_1 =>
      rw [← hmembers] at hm
      exact hdepthOf (State.member_mem_depths hm) (State.below_ne_self hsub (State.member_mem_tail hm))
    case refine_2 =>
      rw [← hmembers] at hm
      exact hdepthOf (State.below_mem_depths hm hq) (State.below_ne_self hsub (State.below_mem_tail hm hq))
    case refine_3 =>
      obtain ⟨e, he⟩ := State.exists_depth hm (ct.depth + 1)
      have hc := hbelow he hne
      rw [if_neg hnot] at hc
      rw [hc]
      cases s.container m <;> rfl
    case refine_4 => rw [State.container_join_apart hx hchain ht hnot hmt, if_pos hm, hcount]
    case refine_5 =>
      have hmt : m ≠ t := fun h => hm (h ▸ s.self_mem_chain t)
      rw [State.container_join_apart hx hchain ht hnot hmt, if_neg hm]

end Sys2Proof.Machine

/-! PROOFS. UNNEST (R97 to R99). -/

namespace Sys2Proof.Machine

-- One proof after another: elaborated side by side, so many short ones outgrow the memory a compile may take.
set_option Elab.async false

open Sys2Proof

/-! The conditions of UNNEST -/

section Conditions

variable {g : State} {l : Link} {it : Item} {n x p : Nat}

theorem State.unnestParent_none (h : Parent.container? (g.itemParent it) = none) :
    g.unnestParent l it = (g, .error (0x18, [])) := by
  rw [State.unnestParent, h]
  rfl

theorem State.unnestParent_claimed {k : Link} (h : Parent.container? (g.itemParent it) = some p)
    (hc : g.otherClaim l (.container p) = some k) : g.unnestParent l it = (g, .error (0x21, [linkCode k])) := by
  simp only [State.unnestParent, h, hc]
  rfl

/-- The parent's claim reloaded, only an item in transit stands against UNNEST (R97, R151). -/
theorem State.unnestParent_free (h : Parent.container? (g.itemParent it) = some p)
    (hc : g.otherClaim l (.container p) = none) :
    g.unnestParent l it =
      if g.unnestTransit it p = true then (g.reloadClaim l (.container p), .error (0x20, []))
      else (g.reloadClaim l (.container p), .ok p) := by
  have htransit : (g.reloadClaim l (.container p)).unnestTransit it p = g.unnestTransit it p := by
    cases it <;> rfl
  simp only [State.unnestParent, h, hc, htransit]
  rfl

theorem State.unnestTransit_carrier :
    g.unnestTransit (.carrier n) p = true ↔ ∃ m ∈ g.chain p, g.inTransit (.container m) = true := by
  simp [State.unnestTransit]

theorem State.unnestTransit_container :
    g.unnestTransit (.container x) p = true ↔
      (∃ m ∈ g.chain p, g.inTransit (.container m) = true) ∨ g.subtreeInTransit x = true := by
  simp [State.unnestTransit]

end Conditions

/-! UNNEST of a carrier after its settle -/

/-- The conditions of UNNEST on the settled record (R97). -/
def unnestSettled (l : Link) (n : Nat) (k : Carrier) (changed : Bool) : Owner := fun g =>
  match g.unnestParent l (.carrier n) with
  | (u, .error (st, extra)) => u.refuseCarrier n changed st extra
  | (u, .ok p) =>
    if k.life = .spent ∧ u.modeIn k.zone k.packed = .bake ∧ k.mode ≠ .bake then
      u.refuseCarrier n changed stGated [gatedReason k.life]
    else unnestCarrierFrom p n k u

theorem unnestCarrier_eq (l : Link) (n : Nat) : unnestCarrier l n = withSettled n (unnestSettled l n) := rfl

section Carrier

variable {s g u : State} {l : Link} {i : Instr} {tag : Byte} {label : Label} {stamp : Option Half} {n p x : Nat}
  {c k : Carrier} {changed : Bool} {q : State × List Byte}

theorem unnestSettled_refused {st : Byte} {extra : List Byte}
    (h : g.unnestParent l (.carrier n) = (u, .error (st, extra))) :
    unnestSettled l n k changed g = u.refuseCarrier n changed st extra := by
  rw [unnestSettled, h]

theorem unnestSettled_free (h : g.unnestParent l (.carrier n) = (u, .ok p)) :
    unnestSettled l n k changed g =
      if k.life = .spent ∧ u.modeIn k.zone k.packed = .bake ∧ k.mode ≠ .bake then
        u.refuseCarrier n changed stGated [gatedReason k.life]
      else unnestCarrierFrom p n k u := by
  rw [unnestSettled, h]

theorem exec_unnest_carrier (hi : i = .unnest l tag label stamp) (hg : s.grants l i = true)
    (hp : s.passes l label (stampOperand stamp) (.carrier n)) (hc : s.carrier n = some c)
    (hq : unnestSettled l n (s.settled c).1
      (decide (c.life ≠ (s.settled c).1.life) || decide (c.bakeCount ≠ (s.settled c).1.bakeCount))
      (s.settledAtEight l i n) = q) :
    exec i s = .next (q.1.ends l 0x15 tag q.2) := by
  subst hi
  refine (serve_carrier (f := unnestCarrier l) (g := unnestContainer l) rfl hg hp).trans ?_
  rw [unnestCarrier_eq, withSettled_stepEight _ hc, hq]
  rfl

theorem exec_unnest_container (hi : i = .unnest l tag label stamp) (hg : s.grants l i = true)
    (hp : s.passes l label (stampOperand stamp) (.container x))
    (hq : unnestContainer l x (s.stepEight l i (.container x)) = q) :
    exec i s = .next (q.1.ends l 0x15 tag q.2) := by
  subst hi
  refine (serve_container (f := unnestCarrier l) (g := unnestContainer l) rfl hg hp).trans ?_
  rw [hq]
  rfl

theorem State.settledAtEight_containers : (s.settledAtEight l i n).containers = s.containers := by
  rw [State.settledAtEight_movesOnly (s := s)]

theorem State.settledAtEight_otherClaim (it : Item) :
    (s.settledAtEight l i n).otherClaim l it = s.otherClaim l it := by
  have h : (s.settledAtEight l i n).otherClaim l it = (s.stepEight l i (.carrier n)).otherClaim l it := by
    rw [State.settledAtEight_eta]
    rfl
  rw [h, State.stepEight, State.otherClaim_reloadClaim, State.granted_otherClaim]

theorem State.settledAtEight_itemParent (hc : s.carrier n = some c) :
    (s.settledAtEight l i n).itemParent (.carrier n) = c.parent := by
  obtain ⟨-, -, kparent, -⟩ := s.settled_kept c
  rw [State.itemParent, State.settledAtEight_same hc]
  exact kparent

end Carrier

/-! The containers a carrier leaves (R90, R98) -/

/-- The state a carrier's UNNEST moves it in: out of the member list and the counts above. -/
def State.takenOut (g : State) (p : Nat) (it : Item) : State := (g.dropMember p it).subSubtree (g.chain p) 1

section TakenOut

variable (g : State) (p : Nat) (it : Item)

theorem State.takenOut_eta : g.takenOut p it = { g with containers := (g.takenOut p it).containers } :=
  containers_trans (State.dropMember_eta ..) (State.subSubtree_eta ..)

theorem State.takenOut_members : (g.takenOut p it).members p = (g.members p).filter fun m => m ≠ it := by
  rw [State.takenOut, State.members_subSubtree, State.members_dropMember]

variable {g p}

theorem State.takenOut_subtreeCount (hchain : (g.chain p).Nodup) {m : Nat} (hm : m ∈ g.chain p) :
    (g.takenOut p it).subtreeCount m = g.subtreeCount m - 1 := by
  rw [State.takenOut, State.subtreeCount_subSubtree _ _ _ hchain hm, State.subtreeCount_dropMember]

theorem State.takenOut_apart {m : Nat} (hm : m ∉ g.chain p) : (g.takenOut p it).container m = g.container m := by
  have hmp : m ≠ p := fun h => hm (h ▸ g.self_mem_chain p)
  rw [State.takenOut, State.container_subSubtree_notMem _ _ hm, State.container_dropMember, if_neg hmp]

end TakenOut

theorem State.reloadClaim_movesOnly (s : State) (l : Link) (it : Item) : s.movesOnly (s.reloadClaim l it) := rfl

/-! UNNEST of a container at step 8 -/

section Container

variable {s : State} {l : Link} {i : Instr} {x p : Nat}

theorem State.stepEight_itemParent (it : Item) :
    (s.stepEight l i it).itemParent (.container x) = (s.container x).bind (·.parent) := by
  cases l <;> rfl

theorem State.stepEight_otherClaim (it ta : Item) : (s.stepEight l i it).otherClaim l ta = s.otherClaim l ta := by
  rw [State.stepEight, State.otherClaim_reloadClaim, State.granted_otherClaim]

theorem State.stepEight_unnestTransit (it : Item) :
    (s.stepEight l i it).unnestTransit (.container x) p = s.unnestTransit (.container x) p := by
  cases l <;> rfl

theorem unnestContainer_refused {g u : State} {st : Byte} {extra : List Byte}
    (h : g.unnestParent l (.container x) = (u, .error (st, extra))) :
    unnestContainer l x g = (u, [st] ++ u16 (u.stampOf (.container x)) ++ [0xFF] ++ extra) := by
  rw [unnestContainer, h]
  rfl

theorem unnestContainer_free {g u : State} (h : g.unnestParent l (.container x) = (u, .ok p)) :
    unnestContainer l x g =
      if u.needsReparent x p then queueReparent l (.unnesting x) x p u else (u.leaveContainer x).doneContainer x := by
  rw [unnestContainer, h]

end Container

/-- Settles O44: R97's conditions in their order, on the settled record of a carrier; then the move out of the
containers above, the leaving of a container, or a REPARENT batch. -/
theorem unnestTakesOut : Obligations.UnnestTakesOut := by
  refine ⟨?_, ?_, ?_, ?_, ?_, ?_⟩
  case refine_1 =>
    rintro s l tag label stamp n p c i hi hg hp hc hparent hclaim hstill hchain hbars
    obtain ⟨-, kpacked, kparent, kzone, kmode, -, -, khold, kstamp, -⟩ := s.settled_kept c
    obtain ⟨g, hgdef⟩ : ∃ g, g = (s.settledAtEight l i n).reloadClaim l (.container p) := ⟨_, rfl⟩
    have hgonly : s.movesOnly g := hgdef ▸ State.settledAtEight_movesOnly.trans (State.reloadClaim_movesOnly ..)
    have hgcontainers : g.containers = s.containers := by rw [hgonly]
    have hgair : s.airKept g := hgdef ▸ State.settledAtEight_airKept
    have hgk : g.carrier n = some (s.settled c).1 := hgdef ▸ State.settledAtEight_same hc
    obtain ⟨r, hr⟩ : ∃ r : Residence, r =
        { parent := s.placeParent p, packed := c.packed, zone := c.zone, mode := s.modeIn c.zone c.packed } := ⟨_, rfl⟩
    obtain ⟨h, hhdef⟩ : ∃ h, h = g.takenOut p (.carrier n) := ⟨_, rfl⟩
    have hheta : h = { g with containers := h.containers } := hhdef ▸ State.takenOut_eta ..
    have hhk : h.carrier n = some (s.settled c).1 := by rw [hheta]; exact hgk
    obtain ⟨d, hd, dparent, dpacked, dzone, dmode, dstamp, -, -, hmoved⟩ :=
      State.moveCarrier_record (r := r) hhk kzone kmode kstamp
    obtain ⟨w, hw⟩ : ∃ w, w = h.moveCarrier n (s.settled c).1 r := ⟨_, rfl⟩
    rw [← hw] at hd hmoved
    have hweta : w = { h with carriers := w.carriers, zones := w.zones, alerts := w.alerts, overflow := w.overflow } :=
      hw ▸ State.moveCarrier_eta ..
    have hfree : (s.settledAtEight l i n).unnestParent l (.carrier n) = (g, .ok p) := by
      have hitem : Parent.container? ((s.settledAtEight l i n).itemParent (.carrier n)) = some p := by
        rw [State.settledAtEight_itemParent hc, hparent]
        rfl
      rw [State.unnestParent_free hitem ((State.settledAtEight_otherClaim _).trans hclaim), if_neg, ← hgdef]
      rw [State.unnestTransit_carrier, State.chain_congr State.settledAtEight_containers]
      rintro ⟨m, hm, hmoving⟩
      rw [State.inTransit_congr State.settledAtEight_containers, hstill m hm] at hmoving
      exact Bool.false_ne_true hmoving
    have hown : unnestSettled l n (s.settled c).1
        (decide (c.life ≠ (s.settled c).1.life) || decide (c.bakeCount ≠ (s.settled c).1.bakeCount))
        (s.settledAtEight l i n) =
          (w, [0x00] ++ u16 (nextStamp c.stamp) ++ [lifeCode d.life] ++ orNone c.zone ++ [modeCode d.mode]) := by
      rw [unnestSettled_free hfree, kzone, kpacked, kmode, State.airKept_modeIn hgair, if_neg hbars]
      have hfrom : unnestCarrierFrom p n (s.settled c).1 g = (w, w.doneMoved n) := by
        rw [unnestCarrierFrom, kpacked, kzone, State.placeParent_congr hgcontainers, State.airKept_modeIn hgair, ← hr]
        rw [← State.takenOut, ← hhdef, State.movedReply, ← hw]
      rw [hfrom]
      simp only [State.doneMoved, State.pastStep8, hd, dstamp, dzone.trans (by rw [hr])]
      simp [stDone]
    have hwcontainers : w.containers = h.containers := by rw [hweta]
    have hgchain : g.chain p = s.chain p := State.chain_congr hgcontainers p
    refine ⟨_, d, exec_unnest_carrier hi hg hp hc hown, by rw [State.ends_carrier, hd], dparent.trans (by rw [hr]),
      dpacked.trans (by rw [hr]), dzone.trans (by rw [hr]), dmode.trans (by rw [hr]), dstamp, fun g' hg' => ?_, ?_,
      fun m hm => ?_, fun m hm => ?_, fun m hm => ?_, fun m => ?_, ?_, ?_, ?_⟩
    case refine_1 =>
      have hsame : g' = g := hg'.trans hgdef.symm
      rw [hsame, ← State.takenOut, ← hhdef, ← hr]
      exact hmoved.ends ..
    case refine_2 =>
      rw [State.ends_members, State.members_congr hwcontainers, hhdef, State.takenOut_members,
        State.members_congr hgcontainers]
    case refine_3 =>
      rw [State.ends_subtreeCount, State.subtreeCount_congr hwcontainers, hhdef,
        State.takenOut_subtreeCount _ (hgchain ▸ hchain) (hgchain ▸ hm), State.subtreeCount_congr hgcontainers]
    case refine_4 =>
      rw [State.ends_container, State.container_congr hwcontainers, hhdef, State.takenOut_apart _ (hgchain ▸ hm),
        State.container_congr hgcontainers]
    case refine_5 =>
      have hhm : h.carrier m = g.carrier m := by rw [hheta]; rfl
      rw [State.ends_carrier, hw, State.moveCarrier_others hhk hm, hhm, hgdef]
      exact State.settledAtEight_others hm
    case refine_6 =>
      have hhair : g.airKept h := fun m => by rw [hheta]; rfl
      have hair : s.airKept w :=
        State.airKept_trans (State.airKept_trans hgair hhair) (hw ▸ h.airKept_moveCarrier n _ r)
      rw [State.ends_zone]
      exact hair m
    case refine_7 => rw [State.ends_batches, hweta, hheta, hgonly]
    case refine_8 =>
      have hformed : s.containsOnly w := by
        unfold State.containsOnly State.movesOnly
        rw [hweta, hheta, hgonly]
      exact hformed.containsOnly_ends ..
    case refine_9 =>
      refine (congrArg LinkState.hand (w.ends_link ..)).trans ?_
      simp
  case refine_2 =>
    rintro s g l tag label stamp x p i hi hg hp hparent hclaim hstill hsub hgdef
    have hgdef : g = s.nestEight l i (.container x) (.container p) := hgdef
    have hfree : (s.stepEight l i (.container x)).unnestParent l (.container x) = (g, .ok p) := by
      rw [State.unnestParent_free (by rw [State.stepEight_itemParent]; exact hparent)
        ((State.stepEight_otherClaim ..).trans hclaim), if_neg, hgdef]
      · rfl
      rw [State.stepEight_unnestTransit, State.unnestTransit_container]
      rintro (⟨m, hm, hmoving⟩ | hmoving)
      · exact Bool.false_ne_true ((hstill m hm).symm.trans hmoving)
      · exact Bool.false_ne_true (hsub.symm.trans hmoving)
    obtain ⟨cx, hcx⟩ : ∃ cx, s.container x = some cx := by
      cases hx : s.container x with
      | none =>
        rw [State.parentOf, hx] at hparent
        exact nomatch hparent
      | some cx => exact ⟨cx, rfl⟩
    have hgcx : g.container x = some cx := by rw [hgdef, State.nestEight_container, hcx]
    have hgparent : g.parentOf x = some p := by rw [State.parentOf, hgcx, ← hcx]; exact hparent
    have hown := unnestContainer_free hfree
    rw [queueReparent_eq, State.doneContainer_eq, State.stampOf_leaveContainer hgparent hgcx] at hown
    have hstamp : g.stampOf (.container x) = s.stampOf (.container x) := hgdef ▸ State.nestEight_stampOf _
    have hreparent : g.needsReparent x p = s.needsReparent x p := hgdef ▸ State.nestEight_needsReparent ..
    have hbatches : g.batches = s.batches := hgdef ▸ State.nestEight_batches
    rw [hstamp, hreparent, hbatches] at hown
    refine ⟨fun hnot => ?_, fun hpacked heff hcount => ⟨fun hfew => ?_, fun hfull => ?_⟩⟩
    · have hno : ¬s.needsReparent x p = true := by
        rw [State.needsReparent_iff]
        rintro ⟨hloose, heff, hcount⟩
        rcases hnot with h | h | h
        · exact Bool.false_ne_true (hloose.symm.trans h)
        · exact Bool.false_ne_true (h.symm.trans heff)
        · exact absurd hcount (by omega)
      rw [if_neg hno] at hown
      exact exec_unnest_container hi hg hp hown
    all_goals rw [if_pos (State.needsReparent_iff.2 ⟨hpacked, heff, hcount⟩)] at hown
    · have hcarriers : g.subCarriers x = s.subCarriers x := hgdef ▸ State.nestEight_subCarriers x
      have hcontainers : g.subContainers x = s.subContainers x := hgdef ▸ State.nestEight_subContainers x
      have hchain : g.chain p = s.chain p := hgdef ▸ State.nestEight_chain p
      have hnext : g.nextBatch = s.nextBatch := hgdef ▸ State.nestEight_nextBatch
      rw [if_neg (Nat.not_le.2 hfew), hcarriers, hcontainers, hchain, hnext] at hown
      exact exec_unnest_container hi hg hp hown
    · rw [if_pos hfull] at hown
      exact exec_unnest_container hi hg hp hown
  case refine_3 =>
    rintro s g0 g l tag label stamp n p c k i hi hg hp hc hparent rfl hg0def hgdef
    have hg0def : g0 = s.settledAtEight l i n := hg0def
    obtain ⟨-, kpacked, -, kzone, kmode, -, -, -, kstamp, -⟩ := s.settled_kept c
    have hg0k : g0.carrier n = some (s.settled c).1 := hg0def ▸ State.settledAtEight_same hc
    have hgk : g.carrier n = some (s.settled c).1 := hgdef ▸ hg0k
    have hrefused {u : State} {st : Byte} {extra : List Byte} (hu : u.carrier n = some (s.settled c).1)
        (hown : unnestSettled l n (s.settled c).1
            (decide (c.life ≠ (s.settled c).1.life) || decide (c.bakeCount ≠ (s.settled c).1.bakeCount)) g0 =
          u.refuseCarrier n
            (decide (c.life ≠ (s.settled c).1.life) || decide (c.bakeCount ≠ (s.settled c).1.bakeCount)) st extra) :
        exec i s = .next (u.refusesAtEight l 0x15 tag n c (s.settled c).1 st extra) := by
      rw [hg0def] at hown
      exact (exec_unnest_carrier hi hg hp hc hown).trans
        (congrArg Host.Outcome.next (State.refuseCarrier_eq l 0x15 tag st extra hu kstamp))
    have hitem : Parent.container? (g0.itemParent (.carrier n)) = some p := by
      rw [hg0def, State.settledAtEight_itemParent hc, hparent]
      rfl
    have hother : g0.otherClaim l (.container p) = s.otherClaim l (.container p) := hg0def ▸ State.settledAtEight_otherClaim _
    have htransit : g0.unnestTransit (.carrier n) p = true ↔ ∃ m ∈ s.chain p, s.inTransit (.container m) = true := by
      rw [hg0def, State.unnestTransit_carrier, State.chain_congr State.settledAtEight_containers]
      simp only [State.inTransit_congr State.settledAtEight_containers]
    refine ⟨fun q hq hl => ?_, fun hclaim hmoving => ?_, fun hclaim hstill hspent hbake hmode => ?_⟩
    · exact hrefused hg0k
        (unnestSettled_refused (State.unnestParent_claimed hitem (hother.trans (State.otherClaim_of_other hq hl))))
    all_goals
      have hcases := State.unnestParent_free hitem (hother.trans hclaim)
      rw [← hgdef] at hcases
    · rw [if_pos (htransit.2 hmoving)] at hcases
      exact hrefused hgk (unnestSettled_refused hcases)
    · have hnot : ¬g0.unnestTransit (.carrier n) p = true := by
        rw [htransit]
        rintro ⟨m, hm, hmoving⟩
        exact Bool.false_ne_true ((hstill m hm).symm.trans hmoving)
      rw [if_neg hnot] at hcases
      have hair : s.airKept g := by rw [hgdef, hg0def]; exact State.settledAtEight_airKept
      have hgated : gatedReason (s.settled c).1.life = 1 := congrArg gatedReason hspent
      have hown := unnestSettled_free (k := (s.settled c).1)
        (changed := decide (c.life ≠ (s.settled c).1.life) || decide (c.bakeCount ≠ (s.settled c).1.bakeCount)) hcases
      rw [kzone, kpacked, kmode, State.airKept_modeIn hair, if_pos ⟨hspent, hbake, hmode⟩] at hown
      rw [hgated] at hown
      exact hrefused hgk hown
  case refine_4 =>
    rintro s l tag label stamp x i hi hg hp
    have hstamp : (s.stepEight l i (.container x)).stampOf (.container x) = s.stampOf (.container x) := by simp
    refine ⟨fun hparent => ?_, fun p hparent => ⟨fun q hq hl => ?_, fun hclaim hmoving => ?_⟩⟩
    · have hown := unnestContainer_refused (l := l)
        (State.unnestParent_none (g := s.stepEight l i (.container x)) (l := l) (it := .container x)
          (by rw [State.stepEight_itemParent]; exact hparent))
      rw [hstamp] at hown
      exact exec_unnest_container hi hg hp hown
    all_goals
      have hitem : Parent.container? ((s.stepEight l i (.container x)).itemParent (.container x)) = some p := by
        rw [State.stepEight_itemParent]
        exact hparent
    · have hown := unnestContainer_refused
        (State.unnestParent_claimed hitem ((State.stepEight_otherClaim ..).trans (State.otherClaim_of_other hq hl)))
      rw [hstamp] at hown
      exact exec_unnest_container hi hg hp hown
    · have hcases := State.unnestParent_free hitem ((State.stepEight_otherClaim ..).trans hclaim)
      rw [if_pos (by rwa [State.stepEight_unnestTransit, State.unnestTransit_container])] at hcases
      have hown := unnestContainer_refused hcases
      have hreloaded : ((s.stepEight l i (.container x)).reloadClaim l (.container p)).stampOf (.container x) =
          s.stampOf (.container x) := State.nestEight_stampOf (ta := .container p) _
      rw [hreloaded] at hown
      exact exec_unnest_container hi hg hp hown
  case refine_5 =>
    rintro s u x p cx cp hcx hparent hcp hx hchain hsub hp rfl
    have hself := State.container_leave_self hparent hx hchain hsub hp
    rw [hcx] at hself
    have hparentRecord : (s.leaveContainer x).container p = some { cp with
        members := cp.members.filter (· ≠ .container x)
        subtree := cp.subtree - cx.subtree } := by
      rw [State.container_leave_apart hparent hx hchain hp hp, if_pos rfl, hcp, State.subtreeCount, hcx]
      rfl
    have hcount : s.subtreeCount x = cx.subtree := by rw [State.subtreeCount, hcx]; rfl
    have hmembers : s.members x = cx.members := by rw [State.members, hcx]; rfl
    have hbelow {m e : Nat} (hm : (m, e) ∈ s.depths x 1) (hne : m ≠ x) :=
      State.container_leave_below hparent hx hchain hsub hp hm hne
    have hdepthOf {m e : Nat} (hm : (m, e) ∈ s.depths x 1) (hne : m ≠ x) :
        ((s.leaveContainer x).container m).map (·.depth) = (s.container m).map fun _ => e := by
      rw [hbelow hm hne]
      split <;> cases s.container m <;> rfl
    refine ⟨by rw [hself]; rfl, by rw [State.members, hparentRecord]; rfl, by rw [State.subtreeCount, hparentRecord]; rfl,
      fun m hm => ?_, fun m q hm hq => ?_, fun m hm hne hnot => ?_, fun m hm hmp hnot => ?_, fun m hm hnot => ?_,
      by rw [State.leaveContainer_eta], State.leaveContainer_eta ..⟩
    case refine_1 =>
      rw [← hmembers] at hm
      exact hdepthOf (State.member_mem_depths hm) (State.below_ne_self hsub (State.member_mem_tail hm))
    case refine_2 =>
      rw [← hmembers] at hm
      exact hdepthOf (State.below_mem_depths hm hq) (State.below_ne_self hsub (State.below_mem_tail hm hq))
    case refine_3 =>
      obtain ⟨e, he⟩ := State.exists_depth hm 1
      have hrecord := hbelow he hne
      rw [if_neg hnot] at hrecord
      rw [hrecord]
      cases s.container m <;> rfl
    case refine_4 =>
      rw [State.container_leave_apart hparent hx hchain hp hnot, if_neg hmp, if_pos hm, hcount]
    case refine_5 =>
      have hmp : m ≠ p := fun h => hm (h ▸ s.self_mem_chain p)
      rw [State.container_leave_apart hparent hx hchain hp hnot, if_neg hmp, if_neg hm]
  case refine_6 =>
    rintro s l tag label stamp n c i hi hg hp hc hparent
    have hrefuse := unnestSettled_refused (k := (s.settled c).1)
      (changed := decide (c.life ≠ (s.settled c).1.life) || decide (c.bakeCount ≠ (s.settled c).1.bakeCount))
      (State.unnestParent_none (g := s.settledAtEight l i n) (l := l) (it := .carrier n)
        (by rw [State.settledAtEight_itemParent hc, hparent]))
    have hstamped : (s.settledAtEight l i n).bumpCarrierIf n
        (decide (c.life ≠ (s.settled c).1.life) || decide (c.bakeCount ≠ (s.settled c).1.bakeCount)) =
          (s.stepEight l i (.carrier n)).settleStamped n := by
      rw [State.settleStamped, State.settle_changed _ _ _ ((State.stepEight_carrier ..).trans hc), State.stepEight_settled]
      rfl
    have hrecord := State.carrier_settledAtEight_bumped (l := l) (i := i) hc
    rw [hstamped] at hrecord
    refine (exec_unnest_carrier hi hg hp hc hrefuse).trans ?_
    simp only [State.refuseCarrier, hstamped]
    rw [State.pastStep8_carrier hrecord, State.stampOf_carrier hrecord]
    simp

end Sys2Proof.Machine

/-! PROOFS. The rows of a batch step, and the final steps (R128 to R135). -/

namespace Sys2Proof.Machine

-- One proof after another: elaborated side by side, so many short ones outgrow the memory a compile may take.
set_option Elab.async false

open Sys2Proof

section Layer

variable {s g w : State} {b : Batch} {x t loc m n : Nat}

/-! Taking a step (R142, R143) -/

/-- A granted step is its act under the grant, and the store freed. -/
theorem stepRow_granted {kind : StepKind} {act : Batch → State → State} (h : s.stepsNow kind b) :
    stepRow kind act s = .next (act b s.grantStep).freeStore := by
  obtain ⟨hquiet, hgranted⟩ := h
  rw [stepRow, State.takeDue_of_quiet hquiet, State.takeStep, hgranted]

theorem State.freeStore_eta (s : State) : s.freeStore = { s with portCount := s.freeStore.portCount } := by
  unfold State.freeStore
  split <;> rfl

theorem State.freeStore_container (m : Nat) : s.freeStore.container m = s.container m := by
  rw [State.freeStore_eta]
  rfl

theorem State.freeStore_carrier (m : Nat) : s.freeStore.carrier m = s.carrier m := by
  rw [State.freeStore_eta]
  rfl

theorem State.freeStore_zone (m : Nat) : s.freeStore.zone m = s.zone m := by
  rw [State.freeStore_eta]
  rfl

/-! Completion (R135) -/

theorem State.completeBatch_container (m : Nat) : (s.completeBatch b).container m = s.container m := by
  rw [State.completeBatch_eta]
  rfl

theorem State.completeBatch_carrier (m : Nat) : (s.completeBatch b).carrier m = s.carrier m := by
  rw [State.completeBatch_eta]
  rfl

/-- What completion leaves before it hands the store on: the job's own writes and BATCH_DONE. -/
def State.batchDone (s : State) (b : Batch) : State :=
  (({ s with batches := s.batches.tail } : State).completeJob b.job).raise .batchDone (.batch b.number b.job.kind) b.doneValue

theorem State.completeBatch_eq (s : State) (b : Batch) :
    s.completeBatch b =
      { s.batchDone b with
        quiesce := if s.quiesce = .quiescing then .quiesced else s.quiesce
        owed := (s.completeBatch b).owed } := by
  have hquiesce : (s.batchDone b).quiesce = s.quiesce := by
    rw [State.batchDone, State.raise_eta, State.completeJob_eta]
  have h : s.completeBatch b = State.oweWaiting { s.batchDone b with
      quiesce := if (s.batchDone b).quiesce = Quiesce.quiescing then .quiesced else (s.batchDone b).quiesce } := rfl
  rw [hquiesce] at h
  rw [h, State.oweWaiting_eta]

theorem State.completeBatch_zone (m : Nat) :
    (s.completeBatch b).zone m = (({ s with batches := s.batches.tail } : State).completeJob b.job).zone m := by
  rw [State.completeBatch_eq, State.batchDone, State.raise_eta]
  rfl

theorem State.completeBatch_cls (m : Nat) :
    (s.completeBatch b).cls m = (({ s with batches := s.batches.tail } : State).completeJob b.job).cls m := by
  rw [State.completeBatch_eq, State.batchDone, State.raise_eta]
  rfl

theorem State.completeBatch_alerts (s : State) (b : Batch) :
    (s.completeBatch b).alerts = (s.raise .batchDone (.batch b.number b.job.kind) b.doneValue).alerts := by
  have h : (s.batchDone b).alerts = (s.raise .batchDone (.batch b.number b.job.kind) b.doneValue).alerts :=
    State.alerts_raise_congr _ _ _ (by rw [State.completeJob_eta]) (by rw [State.completeJob_eta])
  rw [← h, State.completeBatch_eq]

theorem State.completeJob_zone_containers (j : BatchJob) (m : Nat) :
    ((s.completeJob j).zone m).containers = (s.zone m).containers := by
  cases j with
  | evacuate src t loc =>
    rw [State.completeJob]
    split
    · rfl
    · rw [State.zone_modZone]
      split
      next h => rw [h.1]
      · rfl
  | _ => rfl

/-- Completion leaves the number of containers of each zone. -/
theorem State.completeBatch_zone_containers (m : Nat) : ((s.completeBatch b).zone m).containers = (s.zone m).containers :=
  (congrArg Zone.containers (State.completeBatch_zone m)).trans (State.completeJob_zone_containers ..)

/-! The containers of a MOVE or EVACUATE arrive (R131) -/

/-- Arriving twice is arriving once. -/
theorem arriveContainer_twice (top : Bool) (t loc : Nat) (c : Container) :
    arriveContainer top t loc (arriveContainer top t loc c) = arriveContainer top t loc c := by
  cases top <;> simp [arriveContainer]

theorem State.container_foldArrive (f : Nat → Container → Container) (hf : ∀ n c, f n (f n c) = f n c) (m : Nat) :
    ∀ (ns : List Nat) (s : State), (ns.foldl (fun st n => st.modContainer n (f n)) s).container m =
      if m ∈ ns then (s.container m).map (f m) else s.container m
  | [], s => rfl
  | n :: ns, s => by
    rw [List.foldl_cons, State.container_foldArrive f hf m ns, State.container_modContainer]
    by_cases hm : m = n
    · subst hm
      cases s.container m <;> simp [hf]
    · simp [hm]

theorem State.container_bringContainers (s : State) (source : Option Nat) (t loc : Nat) (ns : List Nat) (m : Nat) :
    (s.bringContainers source t loc ns).container m =
      if m ∈ ns then (s.container m).map (arriveContainer (s.isTop m) t loc) else s.container m := by
  rw [State.bringContainers,
    State.container_foldArrive (fun n => arriveContainer (s.isTop n) t loc) (fun n => arriveContainer_twice _ t loc)]
  have hcontainer : ((s.modZoneOpt source fun z => { z with containers := z.containers - ns.length }).modZone t
      fun z => { z with containers := z.containers + ns.length }).container m = s.container m := by
    cases source <;> rfl
  rw [hcontainer]

theorem State.bringContainers_eta (s : State) (source : Option Nat) (t loc : Nat) (ns : List Nat) :
    s.bringContainers source t loc ns =
      { s with
        zones := (s.bringContainers source t loc ns).zones
        containers := (s.bringContainers source t loc ns).containers } := by
  unfold State.bringContainers
  dsimp only
  rw [State.foldContainers_eta _ (fun u n => u.modContainer_eta n _)]
  cases source <;> rfl

/-- The zones after the counts of both zones change (R131). -/
theorem State.zone_bringContainers (s : State) (source : Option Nat) (t loc : Nat) (ns : List Nat) (m : Nat) :
    (s.bringContainers source t loc ns).zone m =
      ((s.modZoneOpt source fun z => { z with containers := z.containers - ns.length }).modZone t
        fun z => { z with containers := z.containers + ns.length }).zone m := by
  unfold State.bringContainers
  dsimp only
  rw [State.foldContainers_eta _ (fun u n => u.modContainer_eta n _)]
  rfl

theorem State.watchTops_eta (t loc : Nat) (tops : List Nat) (s : State) :
    s.watchTops t loc tops =
      { s with
        capture := (s.watchTops t loc tops).capture
        watch := (s.watchTops t loc tops).watch
        alerts := (s.watchTops t loc tops).alerts
        overflow := (s.watchTops t loc tops).overflow } := by
  induction tops generalizing s with
  | nil => rfl
  | cons n tops ih =>
    have h : s.watchTops t loc (n :: tops) = (s.testFinalArrival (s.labelOf (.container n)) loc t).watchTops t loc tops := rfl
    rw [h, ih, State.testFinalArrival_eta]

/-- The state of a MOVE's or EVACUATE's final step before its marks go. -/
def State.arrived (s : State) (b : Batch) (t loc : Nat) : State :=
  (s.grantStep.bringContainers b.job.source t loc b.containers).watchTops t loc (b.containers.filter s.isTop)

theorem exec_moveFinal (h : s.stepsNow .moveFinal b) (ht : b.job.target = (t, loc)) :
    exec .moveFinalStep s =
      .next (((s.arrived b t loc).markAll false b.carriers b.containers).completeBatch b).freeStore := by
  refine (stepRow_granted h).trans ?_
  rw [moveFinalAct, ht]
  rfl

theorem State.arrived_container (m : Nat) :
    (s.arrived b t loc).container m =
      if m ∈ b.containers then (s.container m).map (arriveContainer (s.isTop m) t loc) else s.container m := by
  rw [State.arrived, State.watchTops_eta]
  exact State.container_bringContainers ..

theorem State.arrived_carrier (m : Nat) : (s.arrived b t loc).carrier m = s.carrier m := by
  rw [State.arrived, State.watchTops_eta, State.bringContainers_eta]
  rfl

theorem State.arrived_batches : (s.arrived b t loc).batches = s.batches := by
  rw [State.arrived, State.watchTops_eta, State.bringContainers_eta]
  rfl

theorem State.arrived_zone (m : Nat) :
    (s.arrived b t loc).zone m =
      ((s.modZoneOpt b.job.source fun z => { z with containers := z.containers - b.containers.length }).modZone t
        fun z => { z with containers := z.containers + b.containers.length }).zone m := by
  rw [State.arrived, State.watchTops_eta]
  refine (State.zone_bringContainers ..).trans ?_
  cases b.job.source <;> rfl

/-! The subject of a PACK or UNPACK (R132) -/

/-- Of two writes to one place of a table the later stands. -/
theorem tabPut_tabPut {α : Type} (n : Nat) (a c : α) : ∀ l : List (Nat × α), tabPut (tabPut l n a) n c = tabPut l n c
  | [] => by simp [tabPut]
  | (k, v) :: rest => by
    simp only [tabPut]
    split
    · simp [tabPut]
    · split
      · simp [tabPut]
      · simp [tabPut, *, tabPut_tabPut n a c rest]

theorem State.setContainer_setContainer (s : State) (n : Nat) (a c : Container) :
    (s.setContainer n a).setContainer n c = s.setContainer n c := by
  simp [State.setContainer, tabPut_tabPut]

theorem State.modContainer_of_some {c : Container} (f : Container → Container) (h : s.container n = some c) :
    s.modContainer n f = s.setContainer n (f c) := by
  rw [State.modContainer, h]

end Layer

/-- Settles O54: each final step is its act under the grant, and what the arrival, the marks and the completion write. -/
theorem batchFinalSteps : Obligations.BatchFinalSteps := by
  refine ⟨?_, ?_, ?_, ?_, ?_⟩
  case refine_1 =>
    rintro s w b t loc hnow ht rfl
    exact exec_moveFinal hnow ht
  case refine_2 =>
    rintro s b t loc hnow ht
    obtain ⟨w, hw⟩ : ∃ w, w = s.arrived b t loc := ⟨_, rfl⟩
    have hexec := exec_moveFinal hnow ht
    rw [← hw] at hexec
    have hcontainer (m : Nat) : ((w.markAll false b.carriers b.containers).completeBatch b).freeStore.container m =
        if m ∈ b.containers then
          (s.container m).map fun c => { arriveContainer (s.isTop m) t loc c with inTransit := false }
        else s.container m := by
      rw [State.freeStore_container, State.completeBatch_container, State.container_markAll, hw, State.arrived_container]
      split
      · rw [Option.map_map]
        rfl
      · rfl
    have hcarrier (m : Nat) : ((w.markAll false b.carriers b.containers).completeBatch b).freeStore.carrier m =
        if m ∈ b.carriers then (s.carrier m).map fun c => { c with inTransit := false } else s.carrier m := by
      rw [State.freeStore_carrier, State.completeBatch_carrier, State.carrier_markAll, hw, State.arrived_carrier]
    have hzone (m : Nat) : (((w.markAll false b.carriers b.containers).completeBatch b).freeStore.zone m).containers =
        (((s.modZoneOpt b.job.source fun z => { z with containers := z.containers - b.containers.length }).modZone t
          fun z => { z with containers := z.containers + b.containers.length }).zone m).containers := by
      rw [State.freeStore_zone, State.completeBatch_zone_containers, State.markAll_eta, ← State.arrived_zone, ← hw]
      rfl
    refine ⟨_, hexec, ?_, fun m hm c hc => ?_, fun m hm => ?_, fun n hn => ?_, fun n hn => ?_, fun hsource ht => ?_,
      fun z hsource hz => ?_⟩
    · rw [State.freeStore_eta, State.completeBatch_eta, State.markAll_eta, hw]
      exact congrArg List.tail State.arrived_batches
    · rw [hcontainer, if_pos hm, hc]
      by_cases htop : s.parentOf m = none
      · simp [arriveContainer, State.isTop, htop]
      · simp [arriveContainer, State.isTop, htop]
    · rw [hcontainer, if_neg hm]
    · rw [hcarrier, if_pos hn]
    · rw [hcarrier, if_neg hn]
    · rw [hzone, State.zone_modZone, State.zones_length_modZoneOpt, if_pos ⟨rfl, ht⟩, State.zone_modZoneOpt,
        if_neg fun h => hsource h.1]
    · rw [hzone, State.zone_modZone, if_neg fun h => hz h.1, State.zone_modZoneOpt]
      split
      · rfl
      next hout =>
        rw [State.zone_beyond s z (Nat.not_lt.1 fun h => hout ⟨hsource, h⟩)]
        exact (Nat.zero_sub _).symm
  case refine_3 =>
    rintro s b c hnow hc
    refine (stepRow_granted hnow).trans ?_
    have hsubject : (s.grantStep.modContainer b.job.packing.1 fun c => { c with packed := b.job.packing.2 }).bumpContainer
        b.job.packing.1 =
          s.grantStep.setContainer b.job.packing.1 { c with packed := b.job.packing.2, stamp := nextStamp c.stamp } := by
      rw [State.bumpContainer, State.modContainer_of_some (c := c) (s := s.grantStep) _ hc,
        State.modContainer_of_some _ (State.container_setContainer ..), State.setContainer_setContainer]
    simp only [packFinalAct, hsubject]
  case refine_4 =>
    rintro s b x t hnow
    refine ⟨fun hjob => ?_, fun hjob => ?_⟩
    all_goals
      refine (stepRow_granted hnow).trans ?_
      rw [reparentFinalAct, hjob]
      rfl
  case refine_5 =>
    rintro s u b rfl
    have hvalue : b.doneValue =
        (match b.job with
          | .move _ _ _ _ => some (.leftBehind b.leftBehind)
          | .evacuate _ _ _ => some (.leftBehind b.leftBehind)
          | _ => none) := by
      unfold Batch.doneValue
      cases b.job <;> rfl
    refine ⟨by rw [State.completeBatch_eta], by rw [State.completeBatch_eq], by rw [State.completeBatch_eta],
      by rw [State.completeBatch_eta], ?_, fun cls hjob => ?_, fun src t loc hjob => ?_⟩
    · exact (State.completeBatch_alerts s b).trans (congrArg (fun v => (s.raise .batchDone _ v).alerts) hvalue)
    · rw [State.completeBatch_cls, hjob]
      refine (congrArg ClassRec.revisions (State.cls_setCls ..)).trans ?_
      split
      · rfl
      next hout =>
        have hcold : s.cls cls = ClassRec.cold := by
          have hlen : s.classes.length ≤ cls := Nat.not_lt.1 fun h => hout ⟨rfl, h⟩
          simp [State.cls, List.getD_eq_getElem?_getD, List.getElem?_eq_none hlen]
        exact (congrArg ClassRec.revisions hcold).trans (congrArg (fun r => r.revisions - 1) hcold).symm
    · rw [State.completeBatch_zone, hjob, State.completeJob]
      split
      next h => exact (Bool.and_eq_left_iff_imp.2 fun _ => h).symm
      next h =>
        rw [Bool.not_eq_true] at h
        have hnone : ((s.zone src).evacuating && ({ s with batches := s.batches.tail } : State).evacuatesFrom src) = false := by
          rw [h, Bool.and_false]
        refine Eq.trans ?_ hnone.symm
        rw [State.zone_modZone]
        split
        · rfl
        next hout =>
          exact congrArg Zone.evacuating (State.zone_beyond _ src (Nat.not_lt.1 fun h => hout ⟨rfl, h⟩))


end Sys2Proof.Machine

/-! PROOFS. The carrier steps of a batch (R129 to R134). -/

namespace Sys2Proof.Machine

-- One proof after another: elaborated side by side, so many short ones outgrow the memory a compile may take.
set_option Elab.async false

open Sys2Proof

section Layer

variable {s g h w u : State} {b b' : Batch} {n p t loc : Nat} {c k d : Carrier} {r : Residence} {label : Label}

/-! The settle of a step -/

/-- The state a carrier step settles its carrier into (R128). -/
def State.settledAtStep (s : State) (n : Nat) : State := (s.grantStep.settle n).1

theorem State.settledAtStep_eta (s : State) (n : Nat) :
    s.settledAtStep n =
      { s.grantStep with
        carriers := (s.settledAtStep n).carriers
        zones := (s.settledAtStep n).zones
        alerts := (s.settledAtStep n).alerts
        overflow := (s.settledAtStep n).overflow } :=
  State.settle_eta _ n

theorem State.grantStep_settled : s.grantStep.settled c = s.settled c := State.settled_congr c rfl rfl rfl rfl

theorem State.settledAtStep_same (hc : s.carrier n = some c) :
    (s.settledAtStep n).carrier n = some (s.settled c).1 := by
  have hgranted : s.grantStep.carrier n = some c := hc
  rw [State.settledAtStep, State.carrier_settle, if_pos rfl, hgranted, Option.map_some, State.grantStep_settled]

theorem State.settledAtStep_others {m : Nat} (hm : m ≠ n) : (s.settledAtStep n).carrier m = s.carrier m := by
  rw [State.settledAtStep, State.carrier_settle, if_neg hm]
  rfl

theorem State.settledAtStep_airKept : s.airKept (s.settledAtStep n) :=
  State.airKept_trans (fun _ => rfl) (State.airKept_settle s.grantStep n)

/-- The settle of the carrier at the cursor, as the act reads it. -/
theorem State.settle_grantStep_changed (hc : s.carrier n = some c) :
    (s.grantStep.settle n).2 =
      (decide (c.life ≠ (s.settled c).1.life) || decide (c.bakeCount ≠ (s.settled c).1.bakeCount)) := by
  rw [State.settle_changed s.grantStep n c hc, State.grantStep_settled]

/-- A settle that ends a step with no change of residence advances the stamp by itself (R19). -/
theorem State.carrier_bumpSettled (hk : g.carrier n = some k) (hs : k.stamp = c.stamp) :
    (g.bumpCarrierIf n (decide (c.life ≠ k.life) || decide (c.bakeCount ≠ k.bakeCount))).carrier n =
      some { k with stamp := stampAfterSettle c k } := by
  rw [State.carrier_bumpCarrierIf, if_pos rfl, hk, Option.map_some, hs]
  simp only [Bool.or_eq_true, decide_eq_true_eq, stampAfterSettle]

/-! What a step on one carrier leaves alone -/

/-- `w` is `g` but for the record of carrier `n`, the containers, the zones' lists and counts, and the Alert Queue. -/
structure State.stepKept (g w : State) (n : Nat) : Prop where
  eta : w = { g with
    carriers := w.carriers, zones := w.zones, containers := w.containers, alerts := w.alerts, overflow := w.overflow }
  others : ∀ m, m ≠ n → w.carrier m = g.carrier m
  air : g.airKept w

theorem State.stepKept.trans (h1 : g.stepKept h n) (h2 : h.stepKept w n) : g.stepKept w n where
  eta := by rw [h2.eta, h1.eta]
  others m hm := (h2.others m hm).trans (h1.others m hm)
  air := State.airKept_trans h1.air h2.air

theorem State.stepKept_modCarrier (f : Carrier → Carrier) : g.stepKept (g.modCarrier n f) n where
  eta := by rw [State.modCarrier_eta]
  others m hm := by rw [State.carrier_modCarrier, if_neg hm]
  air m := by
    rw [State.modCarrier_eta]
    rfl

theorem State.stepKept_bumpCarrierIf (changed : Bool) : g.stepKept (g.bumpCarrierIf n changed) n := by
  cases changed
  · exact ⟨rfl, fun _ _ => rfl, fun _ => rfl⟩
  · exact State.stepKept_modCarrier _

theorem State.stepKept_raise (kind : AlertKind) (subj : Subject) (v : Option AlertValue) :
    g.stepKept (g.raise kind subj v) n where
  eta := by rw [State.raise_eta]
  others m _ := by
    rw [State.raise_eta]
    rfl
  air m := by
    rw [State.raise_eta]
    rfl

theorem State.stepKept_takenOut (it : Item) : g.stepKept (g.takenOut p it) n where
  eta := by rw [State.takenOut_eta]
  others m _ := by
    rw [State.takenOut_eta]
    rfl
  air m := by
    rw [State.takenOut_eta]
    rfl

theorem State.stepKept_moveCarrier (hk : g.carrier n = some k) : g.stepKept (g.moveCarrier n k r) n where
  eta := by rw [State.moveCarrier_eta]
  others _ hm := State.moveCarrier_others hk hm k
  air := g.airKept_moveCarrier n k r

/-- The state of a carrier step at its end: the cursor moved, the store freed. -/
def State.stepEnd (w : State) (b : Batch) : State := (w.setOldest b).freeStore

theorem State.stepEnd_eta (w : State) (b : Batch) :
    w.stepEnd b = { w with batches := b :: w.batches.tail, portCount := (w.stepEnd b).portCount } := by
  unfold State.stepEnd
  rw [State.freeStore_eta]
  rfl

theorem State.stepEnd_carrier (m : Nat) : (w.stepEnd b).carrier m = w.carrier m := by
  rw [State.stepEnd_eta]
  rfl

theorem State.stepEnd_zones : (w.stepEnd b).zones = w.zones := by rw [State.stepEnd_eta]

theorem State.stepEnd_alerts : (w.stepEnd b).alerts = w.alerts := by rw [State.stepEnd_eta]

theorem State.stepEnd_containers : (w.stepEnd b).containers = w.containers := by rw [State.stepEnd_eta]

theorem State.carrierMoved.stepEnd {spentToo : Bool} (hmoved : g.carrierMoved w n c r spentToo d) (b : Batch) :
    g.carrierMoved (w.stepEnd b) n c r spentToo d := by
  rw [State.stepEnd_eta]
  obtain ⟨hrecord, hzones, halerts, hoverflow, hcapture, hmore, hwatch, hclaims⟩ := hmoved
  exact ⟨hrecord, hzones, halerts, hoverflow, hcapture, hmore, hwatch, hclaims⟩

/-- What every carrier step keeps and how it writes its batch record; `g` is the state after its settle and the test of
the watch. -/
structure State.StepFrame (s g u : State) (b : Batch) (n : Nat) : Prop where
  others : ∀ m, m ≠ n → u.carrier m = s.carrier m
  air : s.airKept u
  only : s.containsOnly u
  nextBatch : u.nextBatch = s.nextBatch
  capture : u.capture = g.capture
  moreFaults : u.moreFaults = g.moreFaults
  watch : u.watch = g.watch
  claims : u.claims = s.claims
  batches : u.batches = b :: s.batches.tail

theorem State.stepFrame (hg : (s.settledAtStep n).capturesOnly g) (hw : g.stepKept w n) (b : Batch) :
    s.StepFrame g (w.stepEnd b) b n := by
  have hgcarrier (m : Nat) : g.carrier m = (s.settledAtStep n).carrier m := by rw [hg]; rfl
  have heta : w.stepEnd b = { s with
      carriers := w.carriers, zones := w.zones, containers := w.containers, alerts := w.alerts, overflow := w.overflow
      capture := g.capture, moreFaults := g.moreFaults, watch := g.watch
      batches := b :: s.batches.tail, portCount := (w.stepEnd b).portCount, heldOver := .none, owed := [] } := by
    rw [State.stepEnd_eta, hw.eta, hg, State.settledAtStep_eta]
    rfl
  have hair : s.airKept w :=
    State.airKept_trans (State.airKept_trans State.settledAtStep_airKept hg.airKept) hw.air
  constructor
  case others =>
    intro m hm
    rw [State.stepEnd_carrier, hw.others m hm, hgcarrier, State.settledAtStep_others hm]
  case air =>
    intro m
    rw [State.stepEnd_eta]
    exact hair m
  case only =>
    unfold State.containsOnly State.movesOnly
    rw [heta]
  all_goals rw [heta]

/-- A granted carrier step is its act on the carrier at the cursor (R128). -/
theorem carrierStep_granted {kind : StepKind} {act : Batch → Nat → State → State × Batch} {rest : List Nat}
    (hnow : s.stepsNow kind b) (hwalk : b.walk = n :: rest) (hact : act b n s.grantStep = (w, b')) :
    stepRow kind (carrierStep act) s = .next (w.stepEnd b'.stepped) := by
  rw [stepRow_granted hnow, carrierStep, hwalk]
  simp only [hact]
  rfl

/-! The tests of a MOVE or EVACUATE step (R129) -/

theorem State.capturesOnly_stepEntry : s.capturesOnly (s.stepEntry label t loc k).1 := by
  unfold State.stepEntry
  split
  · exact s.capturesOnly_refl
  · exact s.capturesOnly_testArrival ..

theorem State.stepBarred_eq_false_iff :
    s.stepBarred t k = false ↔
      ((s.zone t).cfg.gated = false ∨ (k.life ≠ .expired ∧ k.life ≠ .spent ∧ k.hold = 0)) ∧
        ((s.zone t).cfg.kind ≠ .oven ∨ k.life ≠ .spent) := by
  rw [State.stepBarred, Bool.or_eq_false_iff, Bool.and_eq_false_iff, gateBars, ovenBars, Bool.and_eq_false_iff]
  simp [and_assoc]

/-- A carrier passes when no test bars it and the watch does not block it. -/
theorem State.stepEntry_passes : (s.stepEntry label t loc k).2 = true ↔ s.stepPasses t loc k := by
  have hbarred := s.stepBarred_eq_false_iff (t := t) (k := k)
  unfold State.stepEntry State.stepPasses State.testArrival
  rw [← and_assoc, ← hbarred]
  cases s.stepBarred t k <;> cases s.watchMatches .batch loc <;> cases s.watch.block <;> simp

theorem State.settledAtStep_stepPasses : (s.settledAtStep n).stepPasses t loc k ↔ s.stepPasses t loc k := by
  have hcfg : ((s.settledAtStep n).zone t).cfg = (s.zone t).cfg := by rw [State.settledAtStep_airKept (s := s) t]
  have hwatch : (s.settledAtStep n).watch = s.watch := by rw [State.settledAtStep_eta]; rfl
  have hmatches : (s.settledAtStep n).watchMatches .batch loc = s.watchMatches .batch loc := by
    rw [State.settledAtStep_eta]
    rfl
  rw [State.stepPasses, hcfg, hwatch, hmatches]
  rfl

/-- The state after the tests of R129, as the act of a MOVE or EVACUATE step meets it. -/
def State.testedAtStep (s : State) (n t loc : Nat) (k : Carrier) : State :=
  ((s.settledAtStep n).stepEntry (s.labelOf (.carrier n)) t loc k).1

theorem moveCarrierAct_eq (hc : s.carrier n = some c) (ht : b.job.target = (t, loc)) :
    moveCarrierAct b n s.grantStep =
      if ((s.settledAtStep n).stepEntry (s.labelOf (.carrier n)) t loc (s.settled c).1).2 = true then
        ((s.testedAtStep n t loc (s.settled c).1).stepMove n t loc (s.settled c).1
          (decide (c.life ≠ (s.settled c).1.life) || decide (c.bakeCount ≠ (s.settled c).1.bakeCount)), b)
      else
        ((s.testedAtStep n t loc (s.settled c).1).leaveBehind n (s.settled c).1
          (decide (c.life ≠ (s.settled c).1.life) || decide (c.bakeCount ≠ (s.settled c).1.bakeCount)), b.without n) := by
  have hk := State.settledAtStep_same hc
  rw [State.settledAtStep] at hk
  rw [moveCarrierAct]
  simp only [hk, ht, State.settle_grantStep_changed hc]
  rfl

/-! A carrier that passed (R129) -/

theorem State.stepMove_stays (hn : Parent.container? k.parent ≠ none) (hz : k.zone = some t) (changed : Bool) :
    g.stepMove n t loc k changed = g.bumpCarrierIf n changed := by
  rw [State.stepMove]
  exact if_pos ⟨Option.isSome_iff_ne_none.2 hn, hz⟩

theorem State.stepMove_moves (h : Parent.container? k.parent = none ∨ k.zone ≠ some t)
    (hparent : r.parent = if Parent.container? k.parent = none then some (.place t loc) else k.parent)
    (hpacked : r.packed = k.packed) (hzone : r.zone = some t) (hmode : r.mode = g.modeUnder r.parent (some t) k.packed)
    (changed : Bool) : g.stepMove n t loc k changed = g.moveCarrier n k r := by
  have hto : (if (Parent.container? k.parent).isSome = true then k.parent else some (.place t loc)) = r.parent := by
    rw [hparent]
    cases Parent.container? k.parent <;> rfl
  have hr : r = { parent := r.parent, packed := k.packed, zone := some t, mode := g.modeUnder r.parent (some t) k.packed } := by
    rw [← hpacked, ← hzone] at hmode ⊢
    rw [← hmode]
  rw [State.stepMove]
  refine (if_neg ?_).trans ?_
  · rintro ⟨hn, hz⟩
    exact h.elim (Option.isSome_iff_ne_none.1 hn) fun h' => h' hz
  · simp only [hto]
    rw [← hr]

/-! A carrier left behind (R130) -/

theorem State.detach_loose (hn : Parent.container? k.parent = none) (changed : Bool) :
    g.detach n k changed = g.bumpCarrierIf n changed := by
  rw [State.detach, hn]

theorem State.detach_nested (hn : k.parent = some (.container p)) (changed : Bool) :
    g.detach n k changed =
      (g.takenOut p (.carrier n)).moveCarrier n k
        { parent := g.placeParent p, packed := k.packed, zone := k.zone, mode := g.modeIn k.zone k.packed } := by
  rw [State.detach, hn]
  rfl

/-- The state a left-behind carrier's mark and alert make of `w` (R130). -/
def State.leftBehind (w : State) (n : Nat) (label : Label) : State :=
  (State.markCarrier false w n).raise .leftBehind (.item (.carrier n) label) none

theorem State.leaveBehind_eq (changed : Bool) :
    g.leaveBehind n k changed = (g.detach n k changed).leftBehind n (g.labelOf (.carrier n)) := rfl

theorem State.leftBehind_carrier (hd : w.carrier n = some d) :
    (w.leftBehind n label).carrier n = some { d with inTransit := false } := by
  rw [State.leftBehind, State.raise_eta]
  refine (State.carrier_modCarrier ..).trans ?_
  rw [if_pos rfl, hd]
  rfl

theorem State.leftBehind_zones : (w.leftBehind n label).zones = w.zones := by
  rw [State.leftBehind, State.raise_eta, State.markCarrier, State.modCarrier_eta]

theorem State.leftBehind_containers : (w.leftBehind n label).containers = w.containers := by
  rw [State.leftBehind, State.raise_eta, State.markCarrier, State.modCarrier_eta]

theorem State.leftBehind_alerts :
    (w.leftBehind n label).alerts = (w.raise .leftBehind (.item (.carrier n) label) none).alerts :=
  State.alerts_raise_congr _ _ _ (by rw [State.markCarrier, State.modCarrier_eta])
    (by rw [State.markCarrier, State.modCarrier_eta])

theorem State.stepKept_leftBehind : w.stepKept (w.leftBehind n label) n :=
  (State.stepKept_modCarrier _).trans (State.stepKept_raise ..)

/-! The state after the tests -/

section Tested

variable (hc : s.carrier n = some c)

theorem State.testedAtStep_only (s : State) (n t loc : Nat) (k : Carrier) :
    (s.settledAtStep n).capturesOnly (s.testedAtStep n t loc k) :=
  State.capturesOnly_stepEntry

include hc in
theorem State.testedAtStep_same (k : Carrier) : (s.testedAtStep n t loc k).carrier n = some (s.settled c).1 := by
  rw [s.testedAtStep_only n t loc k]
  exact State.settledAtStep_same hc

theorem State.testedAtStep_containers : (s.testedAtStep n t loc k).containers = s.containers := by
  rw [s.testedAtStep_only n t loc k, State.settledAtStep_eta]
  rfl

theorem State.testedAtStep_labelOf (it : Item) : (s.testedAtStep n t loc k).labelOf it = s.labelOf it := by
  rw [s.testedAtStep_only n t loc k, State.settledAtStep_eta]
  rfl

theorem State.testedAtStep_airKept : s.airKept (s.testedAtStep n t loc k) :=
  State.airKept_trans State.settledAtStep_airKept (s.testedAtStep_only n t loc k).airKept

include hc in
theorem exec_moveCarrierStep_passed {rest : List Nat} (hnow : s.stepsNow .moveCarrier b) (hwalk : b.walk = n :: rest)
    (ht : b.job.target = (t, loc)) (hpass : s.stepPasses t loc (s.settled c).1)
    (hw : (s.testedAtStep n t loc (s.settled c).1).stepMove n t loc (s.settled c).1
      (decide (c.life ≠ (s.settled c).1.life) || decide (c.bakeCount ≠ (s.settled c).1.bakeCount)) = w) :
    exec .moveCarrierStep s = .next (w.stepEnd { b with walk := rest, done := b.done + 1 }) := by
  have hact : moveCarrierAct b n s.grantStep = (w, b) := by
    rw [moveCarrierAct_eq hc ht, if_pos (State.stepEntry_passes.2 (State.settledAtStep_stepPasses.2 hpass)), hw]
  refine (carrierStep_granted hnow hwalk hact).trans ?_
  rw [Batch.stepped, hwalk]
  rfl

include hc in
theorem exec_moveCarrierStep_left {rest : List Nat} (hnow : s.stepsNow .moveCarrier b) (hwalk : b.walk = n :: rest)
    (ht : b.job.target = (t, loc)) (hbar : ¬s.stepPasses t loc (s.settled c).1)
    (hw : (s.testedAtStep n t loc (s.settled c).1).detach n (s.settled c).1
      (decide (c.life ≠ (s.settled c).1.life) || decide (c.bakeCount ≠ (s.settled c).1.bakeCount)) = w) :
    exec .moveCarrierStep s =
      .next ((w.leftBehind n (s.labelOf (.carrier n))).stepEnd
        { b with
          walk := rest
          done := b.done + 1
          leftBehind := b.leftBehind + 1
          carriers := b.carriers.filter fun m => m ≠ n }) := by
  have hact : moveCarrierAct b n s.grantStep = (w.leftBehind n (s.labelOf (.carrier n)), b.without n) := by
    rw [moveCarrierAct_eq hc ht, if_neg fun h => hbar (State.settledAtStep_stepPasses.1 (State.stepEntry_passes.1 h)),
      State.leaveBehind_eq, hw, State.testedAtStep_labelOf]
  refine (carrierStep_granted hnow hwalk hact).trans ?_
  rw [Batch.stepped, Batch.without, hwalk]
  rfl

end Tested

/-! The steps that give a carrier the mode of its new chain (R132, R133) -/

/-- The act of such a step, its mode known: the settle alone when the mode is the carrier's, else a residence change. -/
theorem stepRemode_eq {mode : State → Carrier → ResMode} {m : ResMode} (hc : s.carrier n = some c)
    (hm : mode (s.settledAtStep n) (s.settled c).1 = m) :
    stepRemode n mode s.grantStep =
      if m = c.mode then
        (s.settledAtStep n).bumpCarrierIf n
          (decide (c.life ≠ (s.settled c).1.life) || decide (c.bakeCount ≠ (s.settled c).1.bakeCount))
      else
        (((s.settledAtStep n).changeResidence n
          { parent := c.parent, packed := c.packed, zone := c.zone, mode := m }).1.bakeRefusal n true).bumpCarrier n := by
  obtain ⟨-, kpacked, kparent, kzone, kmode, -⟩ := s.settled_kept c
  have hk := State.settledAtStep_same hc
  rw [State.settledAtStep] at hk hm
  rw [stepRemode]
  simp only [hk, hm, kmode, kparent, kpacked, kzone, State.settle_grantStep_changed hc]
  rfl

/-- The record and the writes of a residence change that BAKE_REFUSED follows also for a SPENT carrier (R132). -/
theorem State.remode_record (hk : g.carrier n = some k) (hm : c.mode ≠ r.mode) (hs : k.stamp = c.stamp)
    (hw : w = ((g.changeResidence n r).1.bakeRefusal n true).bumpCarrier n) :
    ∃ d, w.carrier n = some d ∧ d.parent = r.parent ∧ d.packed = r.packed ∧ d.zone = r.zone ∧ d.mode = r.mode ∧
      d.stamp = nextStamp c.stamp ∧ g.carrierMoved w n c r true d := by
  obtain ⟨d, hd, hmoved⟩ := State.moved_spec (c := c) r true hk hs
  rw [if_pos (Or.inr hm), ← hw] at hd hmoved
  obtain ⟨e, he, eparent, epacked, ezone, emode, -⟩ := State.changeResidence_record (r := r) hk
  obtain ⟨hrecord, -⟩ := id hmoved
  obtain rfl : d = { e with stamp := nextStamp c.stamp } := by simpa [he] using hrecord
  exact ⟨_, hd, eparent, epacked, ezone, emode, rfl, hmoved⟩

theorem State.stepKept_remode (hk : g.carrier n = some k) :
    g.stepKept (((g.changeResidence n r).1.bakeRefusal n true).bumpCarrier n) n := by
  refine State.stepKept.trans (h := (g.changeResidence n r).1.bakeRefusal n true) ⟨?_, fun m hm => ?_, fun m => ?_⟩
    (State.stepKept_modCarrier _)
  · rw [State.bakeRefusal_eta, State.changeResidence_eta]
  · rw [State.bakeRefusal_eta]
    exact State.changeResidence_others hk hm
  · rw [State.bakeRefusal_eta]
    exact g.airKept_changeResidence n r m

theorem State.remode_containers :
    (((g.changeResidence n r).1.bakeRefusal n true).bumpCarrier n).containers = g.containers := by
  rw [State.bumpCarrier, State.modCarrier_eta, State.bakeRefusal_eta, State.changeResidence_eta]

end Layer

theorem exists_container_of_ne_none {q : Option Parent} (h : Parent.container? q ≠ none) :
    ∃ p, q = some (.container p) := by
  match q, h with
  | some (.container p), _ => exact ⟨p, rfl⟩
  | some (.place _ _), h => exact absurd rfl h
  | none, h => exact absurd rfl h

/-- Settles O53: each step is its act on the settled record; a MOVE or EVACUATE by whether the carrier passes and whether
it is nested, the others by whether the mode changes. -/
theorem batchCarrierSteps : Obligations.BatchCarrierSteps := by
  refine ⟨?_, ?_, ?_⟩
  case refine_1 =>
    rintro s g b n t loc rest c k hnow hwalk hc rfl ht hgdef
    have hgdef : g = s.testedAtStep n t loc (s.settled c).1 := hgdef
    obtain ⟨-, kpacked, kparent, kzone, kmode, -, -, -, kstamp, ktransit, -⟩ := s.settled_kept c
    have hgonly : (s.settledAtStep n).capturesOnly g := hgdef ▸ State.testedAtStep_only ..
    have hgk : g.carrier n = some (s.settled c).1 := hgdef ▸ State.testedAtStep_same hc _
    have hgcontainers : g.containers = s.containers := hgdef ▸ State.testedAtStep_containers
    have hgair : s.airKept g := hgdef ▸ State.testedAtStep_airKept
    have hbumped := State.carrier_bumpSettled hgk kstamp
    obtain ⟨w, hw⟩ : ∃ w, w = g.bumpCarrierIf n
      (decide (c.life ≠ (s.settled c).1.life) || decide (c.bakeCount ≠ (s.settled c).1.bakeCount)) := ⟨_, rfl⟩
    rw [← hw] at hbumped
    have hwkept : g.stepKept w n := hw ▸ State.stepKept_bumpCarrierIf _
    have hwcontainers : w.containers = s.containers := by rw [hw, State.bumpCarrierIf_eta]; exact hgcontainers
    have hwzones : w.zones = g.zones := by rw [hw, State.bumpCarrierIf_eta]
    have hwalerts : w.alerts = g.alerts := by rw [hw, State.bumpCarrierIf_eta]
    by_cases hpass : s.stepPasses t loc (s.settled c).1
    · have hexec := exec_moveCarrierStep_passed hc hnow hwalk ht hpass rfl
      rw [← hgdef] at hexec
      by_cases hstays : Parent.container? c.parent ≠ none ∧ c.zone = some t
      · obtain ⟨hnested, hzone⟩ := hstays
        rw [State.stepMove_stays (by rwa [kparent]) (by rwa [kzone]), ← hw] at hexec
        obtain ⟨hothers, hair, honly, hnext, hcapture, hmore, hwatch, hclaims, hbatches⟩ :=
          State.stepFrame hgonly hwkept { b with walk := rest, done := b.done + 1 }
        refine ⟨_, _, hexec, (State.stepEnd_carrier n).trans hbumped, hothers, hair, honly, hnext, hcapture, hmore, hwatch,
          hclaims, fun _ => ⟨hbatches, State.stepEnd_containers.trans hwcontainers, ktransit, fun _ _ =>
            ⟨rfl, State.stepEnd_zones.trans hwzones, State.stepEnd_alerts.trans hwalerts⟩, fun r hr => ?_⟩,
          fun hno => absurd hpass hno⟩
        exact absurd hr fun h => h.elim hnested fun h' => h' hzone
      · have hmoves : Parent.container? c.parent = none ∨ c.zone ≠ some t := by
          by_contra h
          rw [not_or, not_not] at h
          exact hstays h
        obtain ⟨r, hparent, hpacked, hzone, hmode⟩ : ∃ r : Residence,
            r.parent = (if Parent.container? c.parent = none then some (.place t loc) else c.parent) ∧
              r.packed = c.packed ∧ r.zone = some t ∧ r.mode = s.modeUnder r.parent (some t) c.packed :=
          ⟨{ parent := _, packed := _, zone := _, mode := s.modeUnder _ (some t) c.packed }, rfl, rfl, rfl, rfl⟩
        have hunder : r.mode = g.modeUnder r.parent (some t) c.packed := by
          rw [State.modeUnder_congr hgcontainers hgair, hmode]
        rw [State.stepMove_moves (r := r) (by rwa [kparent, kzone]) (by rw [kparent, hparent]) (by rw [kpacked, hpacked])
          hzone (by rw [kpacked, hunder])] at hexec
        obtain ⟨d, hd, dparent, dpacked, dzone, dmode, dstamp, -, dtransit, hmoved⟩ :=
          State.moveCarrier_record (r := r) hgk kzone kmode kstamp
        obtain ⟨hothers, hair, honly, hnext, hcapture, hmore, hwatch, hclaims, hbatches⟩ :=
          State.stepFrame hgonly (State.stepKept_moveCarrier (r := r) hgk) { b with walk := rest, done := b.done + 1 }
        refine ⟨_, d, hexec, (State.stepEnd_carrier n).trans hd, hothers, hair, honly, hnext, hcapture, hmore, hwatch,
          hclaims, fun _ => ⟨hbatches, ?_, dtransit.trans ktransit, fun hnested hz => absurd ⟨hnested, hz⟩ hstays,
            fun r' _ hparent' hpacked' hzone' hmode' => ?_⟩, fun hno => absurd hpass hno⟩
        · rw [State.stepEnd_containers, State.moveCarrier_eta]
          exact hgcontainers
        · have hsame : r' = r := by
            rw [hparent'] at hmode'
            rw [hparent] at hmode
            cases r
            cases r'
            simp_all
          rw [hsame]
          exact ⟨dparent, dpacked, dzone, dmode, dstamp, hmoved.stepEnd _⟩
    · have hexec := exec_moveCarrierStep_left hc hnow hwalk ht hpass rfl
      rw [← hgdef] at hexec
      by_cases hloose : Parent.container? c.parent = none
      · rw [State.detach_loose (by rwa [kparent]), ← hw] at hexec
        obtain ⟨hothers, hair, honly, hnext, hcapture, hmore, hwatch, hclaims, hbatches⟩ :=
          State.stepFrame hgonly (hwkept.trans State.stepKept_leftBehind) _
        refine ⟨_, _, hexec, (State.stepEnd_carrier n).trans (State.leftBehind_carrier hbumped), hothers, hair, honly, hnext,
          hcapture, hmore, hwatch, hclaims, fun hyes => absurd hyes hpass, fun _ => ⟨hbatches, rfl, kpacked, kzone, fun _ =>
            ⟨rfl, ?_, ?_, ?_⟩, fun p r h v hp => ?_⟩⟩
        · rw [State.stepEnd_containers, State.leftBehind_containers, hwcontainers]
        · rw [State.stepEnd_zones, State.leftBehind_zones, hwzones]
        · rw [State.stepEnd_alerts, State.leftBehind_alerts]
          exact State.alerts_raise_congr _ _ _ hwalerts (by rw [hw, State.bumpCarrierIf_eta])
        · rw [hp] at hloose
          exact nomatch hloose
      · obtain ⟨p, hp⟩ := exists_container_of_ne_none hloose
        obtain ⟨r, hr⟩ : ∃ r : Residence, r =
            { parent := s.placeParent p, packed := c.packed, zone := c.zone, mode := s.modeIn c.zone c.packed } := ⟨_, rfl⟩
        obtain ⟨h, hh⟩ : ∃ h, h = g.takenOut p (.carrier n) := ⟨_, rfl⟩
        have hheta : h = { g with containers := h.containers } := hh ▸ State.takenOut_eta ..
        have hhk : h.carrier n = some (s.settled c).1 := by rw [hheta]; exact hgk
        obtain ⟨v, hv⟩ : ∃ v, v = h.moveCarrier n (s.settled c).1 r := ⟨_, rfl⟩
        obtain ⟨d, hd, dparent, dpacked, dzone, dmode, dstamp, -, dtransit, hmoved⟩ :=
          State.moveCarrier_record (r := r) hhk kzone kmode kstamp
        rw [← hv] at hd hmoved
        have hvcontainers : v.containers = h.containers := by rw [hv, State.moveCarrier_eta]
        have hgkept : g.stepKept v n := by
          rw [hv]
          exact (hh ▸ State.stepKept_takenOut (.carrier n)).trans (State.stepKept_moveCarrier hhk)
        have hdetach : g.detach n (s.settled c).1
            (decide (c.life ≠ (s.settled c).1.life) || decide (c.bakeCount ≠ (s.settled c).1.bakeCount)) = v := by
          rw [State.detach_nested (by rwa [kparent]), kpacked, kzone, State.placeParent_congr hgcontainers,
            State.airKept_modeIn hgair, ← hr, ← hh, hv]
        rw [hdetach] at hexec
        obtain ⟨hothers, hair, honly, hnext, hcapture, hmore, hwatch, hclaims, hbatches⟩ :=
          State.stepFrame hgonly (hgkept.trans State.stepKept_leftBehind) _
        refine ⟨_, _, hexec, (State.stepEnd_carrier n).trans (State.leftBehind_carrier hd), hothers, hair, honly, hnext,
          hcapture, hmore, hwatch, hclaims, fun hyes => absurd hyes hpass, fun _ => ⟨hbatches, rfl,
            dpacked.trans (by rw [hr]), dzone.trans (by rw [hr]), fun hnone => absurd hnone hloose, ?_⟩⟩
        intro q r' h' v' hq hr' hh' hv'
        obtain rfl : q = p := by simpa [hp] using hq.symm
        obtain rfl : r' = r := hr'.trans hr.symm
        obtain rfl : h' = h := hh'.trans hh.symm
        obtain rfl : v' = v := hv'.trans hv.symm
        refine ⟨dparent, dmode, dstamp, ?_, ?_, State.stepEnd_zones.trans State.leftBehind_zones,
          State.stepEnd_alerts.trans State.leftBehind_alerts⟩
        · rw [State.members_congr (State.stepEnd_containers.trans (State.leftBehind_containers.trans hvcontainers)), hh,
            State.takenOut_members, State.members_congr hgcontainers]
        · have hrecord : ({ d with inTransit := c.inTransit } : Carrier) = d := by rw [← ktransit, ← dtransit]
          rw [hrecord]
          exact hmoved
  case refine_2 =>
    rintro s g b n rest c k m i hwalk hc rfl hgdef hrow
    have hgdef : g = s.settledAtStep n := hgdef
    obtain ⟨-, kpacked, kparent, kzone, kmode, -, -, -, kstamp, -⟩ := s.settled_kept c
    have hgk : g.carrier n = some (s.settled c).1 := hgdef ▸ State.settledAtStep_same hc
    have hgcontainers : g.containers = s.containers := by rw [hgdef, State.settledAtStep_eta]; rfl
    have hgair : s.airKept g := hgdef ▸ State.settledAtStep_airKept
    have hgonly : (s.settledAtStep n).capturesOnly g := hgdef ▸ State.capturesOnly_refl _
    obtain ⟨r, hr⟩ : ∃ r : Residence, r = { parent := c.parent, packed := c.packed, zone := c.zone, mode := m } :=
      ⟨_, rfl⟩
    have hexec : exec i s = .next (State.stepEnd
        (if m = c.mode then g.bumpCarrierIf n
            (decide (c.life ≠ (s.settled c).1.life) || decide (c.bakeCount ≠ (s.settled c).1.bakeCount))
          else ((g.changeResidence n r).1.bakeRefusal n true).bumpCarrier n)
        { b with walk := rest, done := b.done + 1 }) := by
      rw [hr, hgdef]
      have hstepped : b.stepped = { b with walk := rest, done := b.done + 1 } := by rw [Batch.stepped, hwalk]; rfl
      rw [← hstepped]
      rcases hrow with ⟨rfl, hnow, hm⟩ | ⟨rfl, hnow, hm⟩
      · refine carrierStep_granted (act := packCarrierAct) hnow hwalk ?_
        rw [packCarrierAct, stepRemode_eq hc]
        rw [State.modeIfPacked, kpacked, kparent, kzone, ← hgdef, State.airKept_modeIn hgair,
          State.chainOfParent_congr hgcontainers, hm]
        simp only [State.packedFlag_congr hgcontainers]
      · refine carrierStep_granted (act := reparentCarrierAct) hnow hwalk ?_
        have hflags : g.packedFlag = s.packedFlag := funext fun x => State.packedFlag_congr hgcontainers x
        have hmode : State.modeIfReparented b.job.reparent.1 b.job.reparent.2 (s.settledAtStep n) (s.settled c).1 = m := by
          unfold State.modeIfReparented
          rw [kpacked, kparent, kzone, ← hgdef, State.airKept_modeIn hgair,
            State.chainOfParent_congr hgcontainers, hflags, hm]
          cases b.job.reparent.2 with
          | none => rfl
          | some t => simp only [State.chain_congr hgcontainers]
        rw [reparentCarrierAct, stepRemode_eq hc hmode]
    by_cases hsame : m = c.mode
    · rw [if_pos hsame] at hexec
      have hbumped := State.carrier_bumpSettled hgk kstamp
      obtain ⟨hothers, hair, honly, hnext, -, -, -, -, hbatches⟩ :=
        State.stepFrame hgonly (State.stepKept_bumpCarrierIf _) { b with walk := rest, done := b.done + 1 }
      refine ⟨_, _, hexec, (State.stepEnd_carrier n).trans hbumped, hothers, hair, honly, ?_, hnext, hbatches, fun _ =>
        ⟨rfl, ?_, ?_⟩, fun hne => absurd hsame hne⟩
      · rw [State.stepEnd_containers, State.bumpCarrierIf_eta]
        exact hgcontainers
      · rw [State.stepEnd_zones, State.bumpCarrierIf_eta]
      · rw [State.stepEnd_alerts, State.bumpCarrierIf_eta]
    · rw [if_neg hsame] at hexec
      obtain ⟨d, hd, dparent, dpacked, dzone, dmode, dstamp, hmoved⟩ :=
        State.remode_record (r := r) hgk (by rw [hr]; exact Ne.symm hsame) kstamp rfl
      obtain ⟨hothers, hair, honly, hnext, -, -, -, -, hbatches⟩ :=
        State.stepFrame hgonly (State.stepKept_remode (r := r) hgk) { b with walk := rest, done := b.done + 1 }
      refine ⟨_, d, hexec, (State.stepEnd_carrier n).trans hd, hothers, hair, honly, ?_, hnext, hbatches, fun heq =>
        absurd heq hsame, fun _ => ⟨dmode.trans (by rw [hr]), dparent.trans (by rw [hr]), dpacked.trans (by rw [hr]),
          dzone.trans (by rw [hr]), dstamp, hr ▸ hmoved.stepEnd _⟩⟩
      exact State.stepEnd_containers.trans (State.remode_containers.trans hgcontainers)
  case refine_3 =>
    rintro s w b cls hnow hjob hw
    have hrevised : s.grantStep.reviseSlot b.done b.job.revised = w := by
      rw [hw, hjob]
      rfl
    have hexec : exec .classRevisionStep s =
        .next (if b.done + 1 < Config.carrierSlots then w.setOldest b.stepped else w.completeBatch b).freeStore := by
      refine (stepRow_granted hnow).trans ?_
      rw [revisionAct, hrevised]
    have hbatches : w.batches = s.batches := by
      rw [hw]
      split
      · rfl
      · split
        · rw [State.settleStamped_eta]
          rfl
        · rfl
    have hslots : Config.carrierSlots = 4096 := rfl
    refine ⟨fun hmore => ?_, fun hlast => ?_⟩
    · rw [if_pos (by omega), State.setOldest, hbatches] at hexec
      exact hexec
    · rw [if_neg (by omega)] at hexec
      exact hexec

end Sys2Proof.Machine
